-- ==== Sys2Proof/Word.lean ====
section
/-! DEFINITION. The byte, the only unit of every buffer and of the wire (00_scope.md R8, R11). -/

namespace Sys2Proof

/-- A byte, 8 bits (R8). -/
abbrev Byte := BitVec 8

end Sys2Proof
end

