-- ==== Sys2Proof/Syntax.lean ====
section
/-! DEFINITION. The rows of spec/opcode_table.json as ONE inductive, and the four spaces the table divides them into. -/

namespace Sys2Proof

/-- The `space` of a row of the opcode table: where the engine meets the word (30_encoding.md, introduction). -/
inductive Position where
  | command     -- a code written to `CMD`, 3 bits (R91)
  | lengthByte  -- a byte where a block starts, 8 bits (R82)
  | follow      -- the byte after the data of a bounded block, 8 bits (R85)
  | status      -- the code a command ends with, 2 bits (R203)
deriving DecidableEq, Repr

/-- One constructor per row of the opcode table, its spaces in the order command, follow position,
status, length-byte position. `lbXX` is the row `LB.BOUNDED_XX`. The one
operand field of the table is the byte at a follow position that is no terminator. -/
inductive Instr where
  -- command codes (R92, R93)
  | len | enc | dec | deci | encsStart | encsNext | reserved110 | reserved111
  -- follow position (R85, R153)
  | fpTerm | fpImpliedZero (b : Byte)
  -- status codes (R203)
  | statusOk | statusBufferTooSmall | statusTruncatedFrame | statusInvalidLengthByte
  -- length-byte position (R82)
  | lbInvalid | lb01 | lb02 | lb03 | lb04 | lb05 | lb06 | lb07 | lb08 | lb09 | lb0A | lb0B | lb0C | lb0D | lb0E | lb0F
  | lb10 | lb11 | lb12 | lb13 | lb14 | lb15 | lb16 | lb17 | lb18 | lb19 | lb1A | lb1B | lb1C | lb1D | lb1E | lb1F
  | lb20 | lb21 | lb22 | lb23 | lb24 | lb25 | lb26 | lb27 | lb28 | lb29 | lb2A | lb2B | lb2C | lb2D | lb2E | lb2F
  | lb30 | lb31 | lb32 | lb33 | lb34 | lb35 | lb36 | lb37 | lb38 | lb39 | lb3A | lb3B | lb3C | lb3D | lb3E | lb3F
  | lb40 | lb41 | lb42 | lb43 | lb44 | lb45 | lb46 | lb47 | lb48 | lb49 | lb4A | lb4B | lb4C | lb4D | lb4E | lb4F
  | lb50 | lb51 | lb52 | lb53 | lb54 | lb55 | lb56 | lb57 | lb58 | lb59 | lb5A | lb5B | lb5C | lb5D | lb5E | lb5F
  | lb60 | lb61 | lb62 | lb63 | lb64 | lb65 | lb66 | lb67 | lb68 | lb69 | lb6A | lb6B | lb6C | lb6D | lb6E | lb6F
  | lb70 | lb71 | lb72 | lb73 | lb74 | lb75 | lb76 | lb77 | lb78 | lb79 | lb7A | lb7B | lb7C | lb7D | lb7E | lb7F
  | lb80 | lb81 | lb82 | lb83 | lb84 | lb85 | lb86 | lb87 | lb88 | lb89 | lb8A | lb8B | lb8C | lb8D | lb8E | lb8F
  | lb90 | lb91 | lb92 | lb93 | lb94 | lb95 | lb96 | lb97 | lb98 | lb99 | lb9A | lb9B | lb9C | lb9D | lb9E | lb9F
  | lbA0 | lbA1 | lbA2 | lbA3 | lbA4 | lbA5 | lbA6 | lbA7 | lbA8 | lbA9 | lbAA | lbAB | lbAC | lbAD | lbAE | lbAF
  | lbB0 | lbB1 | lbB2 | lbB3 | lbB4 | lbB5 | lbB6 | lbB7 | lbB8 | lbB9 | lbBA | lbBB | lbBC | lbBD | lbBE | lbBF
  | lbC0 | lbC1 | lbC2 | lbC3 | lbC4 | lbC5 | lbC6 | lbC7 | lbC8 | lbC9 | lbCA | lbCB | lbCC | lbCD | lbCE | lbCF
  | lbD0 | lbD1 | lbD2 | lbD3 | lbD4 | lbD5 | lbD6 | lbD7 | lbD8 | lbD9 | lbDA | lbDB | lbDC | lbDD | lbDE | lbDF
  | lbE0 | lbE1 | lbE2 | lbE3 | lbE4 | lbE5 | lbE6 | lbE7 | lbE8 | lbE9 | lbEA | lbEB | lbEC | lbED | lbEE | lbEF
  | lbF0 | lbF1 | lbF2 | lbF3 | lbF4 | lbF5 | lbF6 | lbF7 | lbF8 | lbF9 | lbFA | lbFB | lbFC | lbFD | lbFE | lbCont
deriving DecidableEq, Repr

end Sys2Proof
end

