-- ==== Sys2Proof/WellFormed.lean ====
section
/-! DEFINITION. Which terms of Instr are words the spec has. -/

namespace Sys2Proof

/-- The byte of an implied zero is "any other value" than the terminator 0x00 (R85); no other row has an operand. -/
def Instr.wf (i : Instr) : Bool :=
  match i with
  | .fpImpliedZero b => b != 0
  | _ => true

end Sys2Proof
end

