-- ==== Sys2Proof/Decode.lean ====
section
/-! DEFINITION. The decoder, total on any bytes and rejecting by name, and after it the encoder. Which row a byte selects
depends on the position the engine meets it at, as the opcode table's `space` says: the four decoders below are the
table's four spaces. -/

namespace Sys2Proof

/-- Why bytes are no instruction. Both are safe: nothing runs. -/
inductive Reject where
  /-- There is no byte to decode. -/
  | noByte
  /-- The value does not fit the word of that position: 3 bits for a command (R91), 2 bits for a status (R203). -/
  | wordTooWide (b : Byte)
deriving DecidableEq, Repr

/-- The command codes (R92) and the two reserved ones (R93). -/
def decodeCommand (code : BitVec 3) : Instr :=
  match code.toNat with
  | 0 => .len
  | 1 => .enc
  | 2 => .dec
  | 3 => .deci
  | 4 => .encsStart
  | 5 => .encsNext
  | 6 => .reserved110
  | _ => .reserved111

/-- The rows 0x00 to 0x0F of the length-byte position. -/
def lengthRows0 : List Instr :=
  [.lbInvalid, .lb01, .lb02, .lb03, .lb04, .lb05, .lb06, .lb07,
   .lb08, .lb09, .lb0A, .lb0B, .lb0C, .lb0D, .lb0E, .lb0F]
/-- The rows 0x10 to 0x1F of the length-byte position. -/
def lengthRows1 : List Instr :=
  [.lb10, .lb11, .lb12, .lb13, .lb14, .lb15, .lb16, .lb17,
   .lb18, .lb19, .lb1A, .lb1B, .lb1C, .lb1D, .lb1E, .lb1F]
/-- The rows 0x20 to 0x2F of the length-byte position. -/
def lengthRows2 : List Instr :=
  [.lb20, .lb21, .lb22, .lb23, .lb24, .lb25, .lb26, .lb27,
   .lb28, .lb29, .lb2A, .lb2B, .lb2C, .lb2D, .lb2E, .lb2F]
/-- The rows 0x30 to 0x3F of the length-byte position. -/
def lengthRows3 : List Instr :=
  [.lb30, .lb31, .lb32, .lb33, .lb34, .lb35, .lb36, .lb37,
   .lb38, .lb39, .lb3A, .lb3B, .lb3C, .lb3D, .lb3E, .lb3F]
/-- The rows 0x40 to 0x4F of the length-byte position. -/
def lengthRows4 : List Instr :=
  [.lb40, .lb41, .lb42, .lb43, .lb44, .lb45, .lb46, .lb47,
   .lb48, .lb49, .lb4A, .lb4B, .lb4C, .lb4D, .lb4E, .lb4F]
/-- The rows 0x50 to 0x5F of the length-byte position. -/
def lengthRows5 : List Instr :=
  [.lb50, .lb51, .lb52, .lb53, .lb54, .lb55, .lb56, .lb57,
   .lb58, .lb59, .lb5A, .lb5B, .lb5C, .lb5D, .lb5E, .lb5F]
/-- The rows 0x60 to 0x6F of the length-byte position. -/
def lengthRows6 : List Instr :=
  [.lb60, .lb61, .lb62, .lb63, .lb64, .lb65, .lb66, .lb67,
   .lb68, .lb69, .lb6A, .lb6B, .lb6C, .lb6D, .lb6E, .lb6F]
/-- The rows 0x70 to 0x7F of the length-byte position. -/
def lengthRows7 : List Instr :=
  [.lb70, .lb71, .lb72, .lb73, .lb74, .lb75, .lb76, .lb77,
   .lb78, .lb79, .lb7A, .lb7B, .lb7C, .lb7D, .lb7E, .lb7F]
/-- The rows 0x80 to 0x8F of the length-byte position. -/
def lengthRows8 : List Instr :=
  [.lb80, .lb81, .lb82, .lb83, .lb84, .lb85, .lb86, .lb87,
   .lb88, .lb89, .lb8A, .lb8B, .lb8C, .lb8D, .lb8E, .lb8F]
/-- The rows 0x90 to 0x9F of the length-byte position. -/
def lengthRows9 : List Instr :=
  [.lb90, .lb91, .lb92, .lb93, .lb94, .lb95, .lb96, .lb97,
   .lb98, .lb99, .lb9A, .lb9B, .lb9C, .lb9D, .lb9E, .lb9F]
/-- The rows 0xA0 to 0xAF of the length-byte position. -/
def lengthRowsA : List Instr :=
  [.lbA0, .lbA1, .lbA2, .lbA3, .lbA4, .lbA5, .lbA6, .lbA7,
   .lbA8, .lbA9, .lbAA, .lbAB, .lbAC, .lbAD, .lbAE, .lbAF]
/-- The rows 0xB0 to 0xBF of the length-byte position. -/
def lengthRowsB : List Instr :=
  [.lbB0, .lbB1, .lbB2, .lbB3, .lbB4, .lbB5, .lbB6, .lbB7,
   .lbB8, .lbB9, .lbBA, .lbBB, .lbBC, .lbBD, .lbBE, .lbBF]
/-- The rows 0xC0 to 0xCF of the length-byte position. -/
def lengthRowsC : List Instr :=
  [.lbC0, .lbC1, .lbC2, .lbC3, .lbC4, .lbC5, .lbC6, .lbC7,
   .lbC8, .lbC9, .lbCA, .lbCB, .lbCC, .lbCD, .lbCE, .lbCF]
/-- The rows 0xD0 to 0xDF of the length-byte position. -/
def lengthRowsD : List Instr :=
  [.lbD0, .lbD1, .lbD2, .lbD3, .lbD4, .lbD5, .lbD6, .lbD7,
   .lbD8, .lbD9, .lbDA, .lbDB, .lbDC, .lbDD, .lbDE, .lbDF]
/-- The rows 0xE0 to 0xEF of the length-byte position. -/
def lengthRowsE : List Instr :=
  [.lbE0, .lbE1, .lbE2, .lbE3, .lbE4, .lbE5, .lbE6, .lbE7,
   .lbE8, .lbE9, .lbEA, .lbEB, .lbEC, .lbED, .lbEE, .lbEF]
/-- The rows 0xF0 to 0xFF of the length-byte position. -/
def lengthRowsF : List Instr :=
  [.lbF0, .lbF1, .lbF2, .lbF3, .lbF4, .lbF5, .lbF6, .lbF7,
   .lbF8, .lbF9, .lbFA, .lbFB, .lbFC, .lbFD, .lbFE, .lbCont]

/-- The 256 rows of the length-byte position, by the value of the byte (R82). -/
def lengthRows : List Instr :=
  lengthRows0 ++ lengthRows1 ++ lengthRows2 ++ lengthRows3 ++ lengthRows4 ++ lengthRows5 ++ lengthRows6 ++
  lengthRows7 ++ lengthRows8 ++ lengthRows9 ++ lengthRowsA ++ lengthRowsB ++ lengthRowsC ++ lengthRowsD ++
  lengthRowsE ++ lengthRowsF

/-- The row of a byte at a length-byte position: every one of the 256 values has one (R82). -/
def decodeLengthByte (b : Byte) : Instr := (lengthRows[b.toNat]?).getD .lbInvalid

/-- The row of a byte at a follow position: 0x00 is the terminator, any other value an implied zero (R85). -/
def decodeFollow (b : Byte) : Instr := if b = 0 then .fpTerm else .fpImpliedZero b

/-- The status codes (R203). -/
def decodeStatus (code : BitVec 2) : Instr :=
  match code.toNat with
  | 0 => .statusOk
  | 1 => .statusBufferTooSmall
  | 2 => .statusTruncatedFrame
  | _ => .statusInvalidLengthByte

/-- The decoder: the first byte is the word; the bytes after it are not part of it (R88, R91). -/
def decode (p : Position) (bytes : List Byte) : Except Reject Instr :=
  match bytes with
  | [] => .error .noByte
  | b :: _ =>
    match p with
    | .command => if b.toNat < 8 then .ok (decodeCommand (b.setWidth 3)) else .error (.wordTooWide b)
    | .lengthByte => .ok (decodeLengthByte b)
    | .follow => .ok (decodeFollow b)
    | .status => if b.toNat < 4 then .ok (decodeStatus (b.setWidth 2)) else .error (.wordTooWide b)

/-- The space of the opcode table an instruction belongs to. -/
def Instr.position : Instr → Position
  | .len | .enc | .dec | .deci | .encsStart | .encsNext | .reserved110 | .reserved111 => .command
  | .lbInvalid | .lb01 | .lb02 | .lb03 | .lb04 | .lb05 | .lb06 | .lb07 | .lb08 | .lb09 | .lb0A | .lb0B | .lb0C | .lb0D | .lb0E | .lb0F
  | .lb10 | .lb11 | .lb12 | .lb13 | .lb14 | .lb15 | .lb16 | .lb17 | .lb18 | .lb19 | .lb1A | .lb1B | .lb1C | .lb1D | .lb1E | .lb1F
  | .lb20 | .lb21 | .lb22 | .lb23 | .lb24 | .lb25 | .lb26 | .lb27 | .lb28 | .lb29 | .lb2A | .lb2B | .lb2C | .lb2D | .lb2E | .lb2F
  | .lb30 | .lb31 | .lb32 | .lb33 | .lb34 | .lb35 | .lb36 | .lb37 | .lb38 | .lb39 | .lb3A | .lb3B | .lb3C | .lb3D | .lb3E | .lb3F
  | .lb40 | .lb41 | .lb42 | .lb43 | .lb44 | .lb45 | .lb46 | .lb47 | .lb48 | .lb49 | .lb4A | .lb4B | .lb4C | .lb4D | .lb4E | .lb4F
  | .lb50 | .lb51 | .lb52 | .lb53 | .lb54 | .lb55 | .lb56 | .lb57 | .lb58 | .lb59 | .lb5A | .lb5B | .lb5C | .lb5D | .lb5E | .lb5F
  | .lb60 | .lb61 | .lb62 | .lb63 | .lb64 | .lb65 | .lb66 | .lb67 | .lb68 | .lb69 | .lb6A | .lb6B | .lb6C | .lb6D | .lb6E | .lb6F
  | .lb70 | .lb71 | .lb72 | .lb73 | .lb74 | .lb75 | .lb76 | .lb77 | .lb78 | .lb79 | .lb7A | .lb7B | .lb7C | .lb7D | .lb7E | .lb7F
  | .lb80 | .lb81 | .lb82 | .lb83 | .lb84 | .lb85 | .lb86 | .lb87 | .lb88 | .lb89 | .lb8A | .lb8B | .lb8C | .lb8D | .lb8E | .lb8F
  | .lb90 | .lb91 | .lb92 | .lb93 | .lb94 | .lb95 | .lb96 | .lb97 | .lb98 | .lb99 | .lb9A | .lb9B | .lb9C | .lb9D | .lb9E | .lb9F
  | .lbA0 | .lbA1 | .lbA2 | .lbA3 | .lbA4 | .lbA5 | .lbA6 | .lbA7 | .lbA8 | .lbA9 | .lbAA | .lbAB | .lbAC | .lbAD | .lbAE | .lbAF
  | .lbB0 | .lbB1 | .lbB2 | .lbB3 | .lbB4 | .lbB5 | .lbB6 | .lbB7 | .lbB8 | .lbB9 | .lbBA | .lbBB | .lbBC | .lbBD | .lbBE | .lbBF
  | .lbC0 | .lbC1 | .lbC2 | .lbC3 | .lbC4 | .lbC5 | .lbC6 | .lbC7 | .lbC8 | .lbC9 | .lbCA | .lbCB | .lbCC | .lbCD | .lbCE | .lbCF
  | .lbD0 | .lbD1 | .lbD2 | .lbD3 | .lbD4 | .lbD5 | .lbD6 | .lbD7 | .lbD8 | .lbD9 | .lbDA | .lbDB | .lbDC | .lbDD | .lbDE | .lbDF
  | .lbE0 | .lbE1 | .lbE2 | .lbE3 | .lbE4 | .lbE5 | .lbE6 | .lbE7 | .lbE8 | .lbE9 | .lbEA | .lbEB | .lbEC | .lbED | .lbEE | .lbEF
  | .lbF0 | .lbF1 | .lbF2 | .lbF3 | .lbF4 | .lbF5 | .lbF6 | .lbF7 | .lbF8 | .lbF9 | .lbFA | .lbFB | .lbFC | .lbFD | .lbFE | .lbCont => .lengthByte
  | .fpTerm | .fpImpliedZero _ => .follow
  | .statusOk | .statusBufferTooSmall | .statusTruncatedFrame | .statusInvalidLengthByte => .status

/-- The word of an instruction, as the "encoding" column of the opcode table has it. -/
def Instr.word : Instr → Byte
  | .len => 0b000 | .enc => 0b001 | .dec => 0b010 | .deci => 0b011
  | .encsStart => 0b100 | .encsNext => 0b101 | .reserved110 => 0b110 | .reserved111 => 0b111
  | .lbInvalid => 0x00 | .lb01 => 0x01 | .lb02 => 0x02 | .lb03 => 0x03 | .lb04 => 0x04 | .lb05 => 0x05 | .lb06 => 0x06 | .lb07 => 0x07
  | .lb08 => 0x08 | .lb09 => 0x09 | .lb0A => 0x0A | .lb0B => 0x0B | .lb0C => 0x0C | .lb0D => 0x0D | .lb0E => 0x0E | .lb0F => 0x0F
  | .lb10 => 0x10 | .lb11 => 0x11 | .lb12 => 0x12 | .lb13 => 0x13 | .lb14 => 0x14 | .lb15 => 0x15 | .lb16 => 0x16 | .lb17 => 0x17
  | .lb18 => 0x18 | .lb19 => 0x19 | .lb1A => 0x1A | .lb1B => 0x1B | .lb1C => 0x1C | .lb1D => 0x1D | .lb1E => 0x1E | .lb1F => 0x1F
  | .lb20 => 0x20 | .lb21 => 0x21 | .lb22 => 0x22 | .lb23 => 0x23 | .lb24 => 0x24 | .lb25 => 0x25 | .lb26 => 0x26 | .lb27 => 0x27
  | .lb28 => 0x28 | .lb29 => 0x29 | .lb2A => 0x2A | .lb2B => 0x2B | .lb2C => 0x2C | .lb2D => 0x2D | .lb2E => 0x2E | .lb2F => 0x2F
  | .lb30 => 0x30 | .lb31 => 0x31 | .lb32 => 0x32 | .lb33 => 0x33 | .lb34 => 0x34 | .lb35 => 0x35 | .lb36 => 0x36 | .lb37 => 0x37
  | .lb38 => 0x38 | .lb39 => 0x39 | .lb3A => 0x3A | .lb3B => 0x3B | .lb3C => 0x3C | .lb3D => 0x3D | .lb3E => 0x3E | .lb3F => 0x3F
  | .lb40 => 0x40 | .lb41 => 0x41 | .lb42 => 0x42 | .lb43 => 0x43 | .lb44 => 0x44 | .lb45 => 0x45 | .lb46 => 0x46 | .lb47 => 0x47
  | .lb48 => 0x48 | .lb49 => 0x49 | .lb4A => 0x4A | .lb4B => 0x4B | .lb4C => 0x4C | .lb4D => 0x4D | .lb4E => 0x4E | .lb4F => 0x4F
  | .lb50 => 0x50 | .lb51 => 0x51 | .lb52 => 0x52 | .lb53 => 0x53 | .lb54 => 0x54 | .lb55 => 0x55 | .lb56 => 0x56 | .lb57 => 0x57
  | .lb58 => 0x58 | .lb59 => 0x59 | .lb5A => 0x5A | .lb5B => 0x5B | .lb5C => 0x5C | .lb5D => 0x5D | .lb5E => 0x5E | .lb5F => 0x5F
  | .lb60 => 0x60 | .lb61 => 0x61 | .lb62 => 0x62 | .lb63 => 0x63 | .lb64 => 0x64 | .lb65 => 0x65 | .lb66 => 0x66 | .lb67 => 0x67
  | .lb68 => 0x68 | .lb69 => 0x69 | .lb6A => 0x6A | .lb6B => 0x6B | .lb6C => 0x6C | .lb6D => 0x6D | .lb6E => 0x6E | .lb6F => 0x6F
  | .lb70 => 0x70 | .lb71 => 0x71 | .lb72 => 0x72 | .lb73 => 0x73 | .lb74 => 0x74 | .lb75 => 0x75 | .lb76 => 0x76 | .lb77 => 0x77
  | .lb78 => 0x78 | .lb79 => 0x79 | .lb7A => 0x7A | .lb7B => 0x7B | .lb7C => 0x7C | .lb7D => 0x7D | .lb7E => 0x7E | .lb7F => 0x7F
  | .lb80 => 0x80 | .lb81 => 0x81 | .lb82 => 0x82 | .lb83 => 0x83 | .lb84 => 0x84 | .lb85 => 0x85 | .lb86 => 0x86 | .lb87 => 0x87
  | .lb88 => 0x88 | .lb89 => 0x89 | .lb8A => 0x8A | .lb8B => 0x8B | .lb8C => 0x8C | .lb8D => 0x8D | .lb8E => 0x8E | .lb8F => 0x8F
  | .lb90 => 0x90 | .lb91 => 0x91 | .lb92 => 0x92 | .lb93 => 0x93 | .lb94 => 0x94 | .lb95 => 0x95 | .lb96 => 0x96 | .lb97 => 0x97
  | .lb98 => 0x98 | .lb99 => 0x99 | .lb9A => 0x9A | .lb9B => 0x9B | .lb9C => 0x9C | .lb9D => 0x9D | .lb9E => 0x9E | .lb9F => 0x9F
  | .lbA0 => 0xA0 | .lbA1 => 0xA1 | .lbA2 => 0xA2 | .lbA3 => 0xA3 | .lbA4 => 0xA4 | .lbA5 => 0xA5 | .lbA6 => 0xA6 | .lbA7 => 0xA7
  | .lbA8 => 0xA8 | .lbA9 => 0xA9 | .lbAA => 0xAA | .lbAB => 0xAB | .lbAC => 0xAC | .lbAD => 0xAD | .lbAE => 0xAE | .lbAF => 0xAF
  | .lbB0 => 0xB0 | .lbB1 => 0xB1 | .lbB2 => 0xB2 | .lbB3 => 0xB3 | .lbB4 => 0xB4 | .lbB5 => 0xB5 | .lbB6 => 0xB6 | .lbB7 => 0xB7
  | .lbB8 => 0xB8 | .lbB9 => 0xB9 | .lbBA => 0xBA | .lbBB => 0xBB | .lbBC => 0xBC | .lbBD => 0xBD | .lbBE => 0xBE | .lbBF => 0xBF
  | .lbC0 => 0xC0 | .lbC1 => 0xC1 | .lbC2 => 0xC2 | .lbC3 => 0xC3 | .lbC4 => 0xC4 | .lbC5 => 0xC5 | .lbC6 => 0xC6 | .lbC7 => 0xC7
  | .lbC8 => 0xC8 | .lbC9 => 0xC9 | .lbCA => 0xCA | .lbCB => 0xCB | .lbCC => 0xCC | .lbCD => 0xCD | .lbCE => 0xCE | .lbCF => 0xCF
  | .lbD0 => 0xD0 | .lbD1 => 0xD1 | .lbD2 => 0xD2 | .lbD3 => 0xD3 | .lbD4 => 0xD4 | .lbD5 => 0xD5 | .lbD6 => 0xD6 | .lbD7 => 0xD7
  | .lbD8 => 0xD8 | .lbD9 => 0xD9 | .lbDA => 0xDA | .lbDB => 0xDB | .lbDC => 0xDC | .lbDD => 0xDD | .lbDE => 0xDE | .lbDF => 0xDF
  | .lbE0 => 0xE0 | .lbE1 => 0xE1 | .lbE2 => 0xE2 | .lbE3 => 0xE3 | .lbE4 => 0xE4 | .lbE5 => 0xE5 | .lbE6 => 0xE6 | .lbE7 => 0xE7
  | .lbE8 => 0xE8 | .lbE9 => 0xE9 | .lbEA => 0xEA | .lbEB => 0xEB | .lbEC => 0xEC | .lbED => 0xED | .lbEE => 0xEE | .lbEF => 0xEF
  | .lbF0 => 0xF0 | .lbF1 => 0xF1 | .lbF2 => 0xF2 | .lbF3 => 0xF3 | .lbF4 => 0xF4 | .lbF5 => 0xF5 | .lbF6 => 0xF6 | .lbF7 => 0xF7
  | .lbF8 => 0xF8 | .lbF9 => 0xF9 | .lbFA => 0xFA | .lbFB => 0xFB | .lbFC => 0xFC | .lbFD => 0xFD | .lbFE => 0xFE | .lbCont => 0xFF
  | .fpTerm => 0x00 | .fpImpliedZero b => b
  | .statusOk => 0b00 | .statusBufferTooSmall => 0b01 | .statusTruncatedFrame => 0b10 | .statusInvalidLengthByte => 0b11

/-- The encoder: the bytes of an instruction. -/
def encode (i : Instr) : List Byte := [i.word]

/-- The value of a row of the length-byte position. -/
def Instr.lengthValue? (i : Instr) : Option Byte := if i.position = .lengthByte then some i.word else none

/-- Which space a word of the opcode table is read in when only its bits are given. Four spaces share the short words,
so the bits alone do not tell (DESIGN CHOICE, log 14): 2 bits are a status, 3 bits a command; 8 bits are a command where
they fit one, else a length byte; more bits start with a length byte. -/
def tablePosition (nbits w : Nat) : Position :=
  if nbits ≤ 2 then .status
  else if nbits ≤ 3 then .command
  else if nbits ≤ 8 ∧ w < 8 then .command
  else .lengthByte

/-- The bytes of a word numbered as the table numbers it: the first byte is the least significant. -/
def wordBytes (w : Nat) : Nat → List Byte
  | 0 => []
  | k + 1 => BitVec.ofNat 8 w :: wordBytes (w / 256) k

/-- What the decoder reads from a word of the opcode table. -/
def decodeTableWord (nbits w : Nat) : Option Instr :=
  match decode (tablePosition nbits w) (wordBytes w (max 1 ((nbits + 7) / 8))) with
  | .ok i => some i
  | .error _ => none

end Sys2Proof
end

