-- ==== Sys2Proof/Config.lean ====
section
/-! DEFINITION. What the spec leaves to the implementation, and the free values. -/

namespace Sys2Proof

/-- What a failed command leaves in the destination bytes it was entitled to write (41_block_encoder.md R128,
42_block_decoder.md R159, R164; D15, U2). Both readings are the spec's; log 7. -/
inductive FailedDest where
  | written  -- the bytes written before the failure and nothing else: what the pseudocode leaves
  | anyValue -- any value in the whole range: "The *specified* contract" of D15
deriving DecidableEq, Repr

/-- The parameters of the block (00_scope.md R9). State holds them as plain data that no step changes, so a
statement about every state is a statement about every implementation; log 3. -/
structure Config where
  /-- `W`, the width in bits of every length, capacity and cursor. -/
  width : Nat
  /-- `N_MAX`, the largest raw-message length. -/
  nMax : Nat
  failedDest : FailedDest
deriving DecidableEq, Repr

/-- The constraint R9 puts on the parameters. -/
def Config.legal (c : Config) : Bool :=
  decide (9 ≤ c.width) && decide (c.nMax + c.nMax / 254 + 2 ≤ 2 ^ c.width - 1)

/-- A free length: what an unspecified register of `W` bits holds at the k-th draw (R23, R35). No body: nothing is
known of it; log 6. -/
opaque Config.freeLen : Nat → Nat

/-- A free byte: the j-th byte of the k-th draw (R24, U2, U13). No body: nothing is known of it; log 6. -/
opaque Config.freeByte : Nat → Nat → Byte

end Sys2Proof
end

