-- ==== Sys2Proof/Machine/State.lean ====
section
/-! DEFINITION. The state of the framer block and of the host at its interface, plain data; why a step can stop; the
state right after reset. -/

namespace Sys2Proof.Machine

/-- The host's memory: the listed (address, byte) pairs, addresses strictly rising, no byte listed that an unlisted
address reads as anyway. -/
abbrev Memory := List Host.Cell

/-- The three buffer spaces (20_memory.md R50). -/
inductive Buffer where
  | src | dst | buf
deriving DecidableEq, Repr

/-- How a command ends (60_exceptions.md R200, R203). -/
inductive StatusCode where
  | ok | bufferTooSmall | truncatedFrame | invalidLengthByte
deriving DecidableEq, Repr

/-- Why a run of the encoder's scan ended (41_block_encoder.md R120): `cont` after 254 bytes, `zero` before a zero byte,
`fin` (the spec's END) at the message's end. -/
inductive RunKind where
  | cont | zero | fin
deriving DecidableEq, Repr

/-- What the next `ENCS.NEXT` yields (10_state.md R29): nothing, a length byte, a data byte, the terminator. -/
inductive Phase where
  | done | head | data | term
deriving DecidableEq, Repr

/-- The iterator bank `ITER` (10_state.md R29). -/
structure Iter where
  n     : Nat
  pos   : Nat
  rem   : Nat
  tail  : RunKind
  phase : Phase
deriving DecidableEq, Repr

/-- Which of the two decode commands is in progress (42_block_decoder.md R152, R160). -/
inductive DecodeForm where
  | dec | deci
deriving DecidableEq, Repr

/-- Where the decoder is between two of its steps: at a length byte, at a follow position, or at its end. -/
inductive DecodeAt where
  | lengthByte
  | follow
  | ended (code : StatusCode)
deriving DecidableEq, Repr

/-- The per-command record of a decode in progress (10_state.md R27, R31): the operands sampled at issue (R94) and the
two cursors. -/
structure Job where
  form  : DecodeForm
  len   : Nat
  cap   : Nat
  r     : Nat
  w     : Nat
  stage : DecodeAt
deriving DecidableEq, Repr

/-- Where the platform has put the buffers, and the windows (base, size) of memory whose reads have side effects
(20_memory.md R54, R56). -/
structure Placement where
  src     : Nat
  dst     : Nat
  buf     : Nat
  devices : List (Nat × Nat)
deriving DecidableEq, Repr

/-- The registers as the host names them (10_state.md R36). -/
inductive HostReg where
  | argLen | dstCap | rlen | sdata | cmd | status | svalid | iter
deriving DecidableEq, Repr

/-- What the host can do next (10_state.md R36, 30_encoding.md R96, 70_reset_and_hazards.md R232); log 2. -/
inductive HostAction where
  /-- Write a register. A write of `CMD` issues the command, which runs to completion in one step (R25, D1). -/
  | writeReg (reg : HostReg) (v : Nat)
  /-- Read a register. -/
  | readReg (reg : HostReg)
  /-- Write one byte of a buffer, in a device window as in ordinary memory (R54 is silent: DESIGN CHOICE, log 21). -/
  | poke (b : Buffer) (i : Nat) (v : Byte)
  /-- Read one byte of a buffer, in a device window as in ordinary memory (R54 is silent: DESIGN CHOICE, log 21). -/
  | peek (b : Buffer) (i : Nat)
  /-- Put a buffer somewhere else in the host's memory (R56). An open lazy sequence reads `SRC` where it then lies (DESIGN
  CHOICE, log 20). -/
  | place (b : Buffer) (base : Nat)
  /-- Write `CMD`, and let a decode advance one step of the machine at a time (R31; log 1). -/
  | issueByBlock (code : Nat)
  /-- Reset the instance (R230). -/
  | reset
  /-- Write `CMD`, with a reset that comes before the command has completed (R232, U13). -/
  | resetDuring (code : Nat)
deriving DecidableEq, Repr

/-- One mark per register: its value is specified, in the sense of 10_state.md R34 and R35. The marks of the two operand
registers say that the host has written them since reset, without which a command that reads them is refused
(70_reset_and_hazards.md R234, D21). The marks are the model's own field (log 13). -/
structure Marks where
  argLen : Bool
  dstCap : Bool
  rlen   : Bool
  sdata  : Bool
  status : Bool
  svalid : Bool
deriving DecidableEq, Repr

/-- One instance of the block with the host at its interface. -/
structure State where
  /-- The parameters of R9. -/
  cfg : Config
  /-- `ARG_LEN` (R21). -/
  argLen : Nat
  /-- `DST_CAP` (R22). -/
  dstCap : Nat
  /-- `RLEN` (R23). -/
  rlen : Nat
  /-- `SDATA` (R24). -/
  sdata : Byte
  /-- `STATUS` (R26). -/
  status : BitVec 2
  /-- `SVALID` (R28). -/
  svalid : Bool
  /-- `ITER` (R29). -/
  iter : Iter
  /-- The decode in progress, if the engine is between two steps of one (R31). -/
  job : Option Job
  /-- The host's memory, in which the three buffers lie (R33, R50). -/
  mem : Memory
  /-- Where the buffers lie (R56). -/
  place : Placement
  /-- The host's pending actions, oldest first (R96). -/
  host : List HostAction
  /-- What the host's last read returned. -/
  hostData : Nat
  /-- How many free values have been drawn. -/
  free : Nat
  /-- Which registers hold a specified value. -/
  specified : Marks
deriving DecidableEq, Repr

/-- Faults: none. "Nothing in this hardware is a fault in the sense of a trap, and nothing is stuck"
(93_implementation_defined.md section 1); the failures of a command are values of `STATUS` (R200). -/
inductive Fault where
deriving DecidableEq, Repr

/-- Why the machine gives no next state. Every one is safe: the machine stops where the spec's block has no meaning. -/
inductive Refusal where
  /-- Raised by an arm of exec that has no meaning yet; safe. -/
  | notModelled (mnemonic : String)
  /-- Raised by the codes 110 and 111: "a model has no transition for them (refuse)" (R93); safe. -/
  | reservedCommand
  /-- Raised by a command that reads an operand register nothing has written since reset: "Issuing a command that reads a
  register still unspecified since reset is refused by the model" (70_reset_and_hazards.md R234; 92_eei_decisions.md D21);
  safe. -/
  | operandUnspecified
  /-- Raised by `LEN`, `ENC`, `ENCS.START` with `ARG_LEN` above `N_MAX`: "the model refuses it" (R94); safe. -/
  | messageTooLong
  /-- Raised by `ENC` and `DEC` whose source and destination share a byte: "(model: refuse)" (R61); safe. -/
  | buffersOverlap
  /-- Raised by a command pointed at memory whose reads have side effects: "(model: refuse)" (R54); safe. -/
  | deviceMemory
  /-- Raised by a wire or status row run where the engine is not at its position (log 19); safe. -/
  | notAtPosition
  /-- Raised by the host's read of `CMD` ("reading it is refused", R25) or of `ITER` ("The host cannot read it", R29; log 18);
  safe. -/
  | registerNotReadable
  /-- Raised by the host's write of a register it may not write (R23, R24, R26, R28, R29, R36; log 18); safe. -/
  | registerNotWritable
  /-- Raised by the host's write of a value wider than its register (R11, R25); safe; log 18. -/
  | valueTooWide
deriving DecidableEq, Repr

/-- No register holds a specified value (R34). -/
def Marks.unset : Marks := ⟨false, false, false, false, false, false⟩

/-- The machine right after reset (10_state.md R34). The spec fixes that the engine is idle and `ITER.phase` is DONE;
the values of the registers it leaves unspecified are DESIGN CHOICES of log 4, those of the parameters of log 3, of the
placement of log 11; nothing is listed in memory. -/
def State.reset : State where
  cfg := ⟨32, 4278124285, .written⟩
  argLen := 0
  dstCap := 0
  rlen := 0
  sdata := 0
  status := 0
  svalid := false
  iter := ⟨0, 0, 0, .fin, .done⟩
  job := none
  mem := []
  place := ⟨0, 4294967296, 8589934592, []⟩
  host := []
  hostData := 0
  free := 0
  specified := Marks.unset

end Sys2Proof.Machine
end

