-- ==== Sys2Proof/Machine/Operands.lean ====
section
/-! DEFINITION. Operands: where the buffers lie, which operands a command may be issued with (30_encoding.md R94), the
encoder's scan (41_block_encoder.md R120) and the two ways between a length byte and a count (R83, R84). -/

namespace Sys2Proof.Machine

/-- The address of index 0 of a buffer (R56; log 11). -/
def Placement.base (p : Placement) : Buffer → Nat
  | .src => p.src
  | .dst => p.dst
  | .buf => p.buf

/-- Move a buffer. -/
def Placement.move (p : Placement) (b : Buffer) (base : Nat) : Placement :=
  match b with
  | .src => { p with src := base }
  | .dst => { p with dst := base }
  | .buf => { p with buf := base }

/-- The address of a byte of a buffer: its index from the buffer's base (R50, R67). -/
def State.addr (s : State) (b : Buffer) (i : Nat) : Nat := s.place.base b + i

/-- The range of bytes meets a window whose reads have side effects (R54). -/
def State.touchesDevice (s : State) (b : Buffer) (n : Nat) : Bool :=
  s.place.devices.any fun d => rangesMeet (s.addr b 0) n d.1 d.2

/-- `SRC[0..ARG_LEN)` and `DST[0..DST_CAP)` share a byte of storage (R61). -/
def State.buffersOverlap (s : State) : Bool := rangesMeet (s.addr .src 0) s.argLen (s.addr .dst 0) s.dstCap

/-- `ARG_LEN` is no length of a raw message (R94). -/
def State.messageTooLong (s : State) : Bool := decide (s.cfg.nMax < s.argLen)

/-- `ARG_LEN` has not been written since reset. "Issuing a command that reads a register still unspecified since reset is
refused by the model" (70_reset_and_hazards.md R234; 92_eei_decisions.md D21; 10_state.md R35). -/
def State.argLenUnwritten (s : State) : Bool := !s.specified.argLen

/-- `ARG_LEN` or `DST_CAP` has not been written since reset (R234, D21, R35). -/
def State.operandsUnwritten (s : State) : Bool := !s.specified.argLen || !s.specified.dstCap

/-- Why `LEN` is refused: its operand (R234, R94, R111). -/
def State.lenRefusal (s : State) : Option Refusal :=
  if s.argLenUnwritten then some .operandUnspecified
  else if s.messageTooLong then some .messageTooLong
  else none

/-- Why `ENC` is refused: its operands (R234, R94, R61, R54), in this order (log 12). -/
def State.encRefusal (s : State) : Option Refusal :=
  if s.operandsUnwritten then some .operandUnspecified
  else if s.messageTooLong then some .messageTooLong
  else if s.buffersOverlap then some .buffersOverlap
  else if s.touchesDevice .src s.argLen || s.touchesDevice .dst s.dstCap then some .deviceMemory
  else none

/-- Why `DEC` is refused: it accepts any `ARG_LEN` (R234, R94, R61, R54), in this order (log 12). -/
def State.decRefusal (s : State) : Option Refusal :=
  if s.operandsUnwritten then some .operandUnspecified
  else if s.buffersOverlap then some .buffersOverlap
  else if s.touchesDevice .src s.argLen || s.touchesDevice .dst s.dstCap then some .deviceMemory
  else none

/-- Why `DECI` is refused: it accepts any `ARG_LEN` and ignores `DST_CAP` (R234, R94, R160, R54). -/
def State.deciRefusal (s : State) : Option Refusal :=
  if s.argLenUnwritten then some .operandUnspecified
  else if s.touchesDevice .buf s.argLen then some .deviceMemory
  else none

/-- Why `ENCS.START` is refused: its operand (R234, R94, R131). -/
def State.encsStartRefusal (s : State) : Option Refusal :=
  if s.argLenUnwritten then some .operandUnspecified
  else if s.messageTooLong then some .messageTooLong
  else none

/-- Why `ENCS.NEXT` is refused: only in the phases in which it reads the borrowed message (R55), when that message lies
in memory whose reads have side effects (R54). -/
def State.encsNextRefusal (s : State) : Option Refusal :=
  match s.iter.phase with
  | .head | .data => if s.touchesDevice .src s.iter.n then some .deviceMemory else none
  | .term | .done => none

/-- The scan's count: how many bytes from index `p` on are non-zero, before the message's end and within `fuel`. -/
def scanCount (m : Memory) (base n : Nat) : Nat → Nat → Nat
  | 0, _ => 0
  | fuel + 1, p =>
    if p < n ∧ m.read (base + p) ≠ 0 then scanCount m base n fuel (p + 1) + 1 else 0

/-- `run` (R120) over the `n` bytes from `base`: the length and kind of the run at index `p`. -/
def scanRun (m : Memory) (base n p : Nat) : Nat × RunKind :=
  let l := scanCount m base n 254 p
  (l, if l = 254 then .cont else if p + l < n then .zero else .fin)

/-- From a run to its length byte (R83). -/
def runLengthByte (l : Nat) : RunKind → Byte
  | .cont => 0xFF
  | .zero | .fin => BitVec.ofNat 8 (l + 1)

/-- From a length byte to its count of data bytes, `zext_W(c) - 1` (R84). -/
def dataCount (c : Byte) : Nat := c.toNat - 1

end Sys2Proof.Machine
end

