-- ==== Sys2Proof/Machine/Flags.lean ====
section
/-! DEFINITION. How a command ends: the status codes (60_exceptions.md R203), the result registers a completion writes,
and what a failure leaves (R209). This is the block's whole failure mechanism: nothing is saved, control goes nowhere. -/

namespace Sys2Proof.Machine

/-- The number of a status code (R203). -/
def StatusCode.bits : StatusCode → BitVec 2
  | .ok => 0
  | .bufferTooSmall => 1
  | .truncatedFrame => 2
  | .invalidLengthByte => 3

/-- Write `STATUS` (R26). -/
def State.postStatus (s : State) (code : StatusCode) : State :=
  { s with status := code.bits, specified := { s.specified with status := true } }

/-- `return OK(v)` (R13, R203): `STATUS` is 0 and `RLEN` is `v`. -/
def State.postOk (s : State) (v : Nat) : State :=
  { s with
    status := StatusCode.ok.bits
    rlen := v
    specified := { s.specified with status := true, rlen := true } }

/-- `raise E` (R13, R203): `STATUS` is the code of `E` and `RLEN` becomes unspecified, a free value of `W` bits (R23). -/
def State.postFailure (s : State) (code : StatusCode) : State :=
  { s with
    status := code.bits
    rlen := Config.freeLen s.free % 2 ^ s.cfg.width
    free := s.free + 1
    specified := { s.specified with status := true, rlen := false } }

/-- Put free values into the first `n` bytes of a buffer. -/
def State.spoil (s : State) (b : Buffer) (n : Nat) : State :=
  { s with mem := s.mem.spoil s.free (s.addr b 0) n, free := s.free + 1 }

/-- What a failed command leaves in the first `n` bytes of the buffer it was entitled to write: as the configuration
says, what it wrote there or any value (R128, R159, R164; D15, U2; log 7). -/
def State.leaveFailed (s : State) (b : Buffer) (n : Nat) : State :=
  match s.cfg.failedDest with
  | .written => s
  | .anyValue => s.spoil b n

/-- `yield(b)` (R132). -/
def State.yieldByte (s : State) (b : Byte) : State :=
  { s with
    sdata := b
    svalid := true
    status := StatusCode.ok.bits
    specified := { s.specified with sdata := true, svalid := true, status := true } }

/-- `ENCS.NEXT` with nothing to yield (R132, R134): `SVALID` is 0 and `SDATA` unspecified, a free value (R24). -/
def State.yieldNothing (s : State) : State :=
  { s with
    sdata := Config.freeByte s.free 0
    svalid := false
    status := StatusCode.ok.bits
    free := s.free + 1
    specified := { s.specified with sdata := false, svalid := true, status := true } }

end Sys2Proof.Machine
end

