-- ==== Sys2Proof/Machine/Ops.lean ====
section
/-! DEFINITION. The named operations the commands share: `put`, the encoder's loop, the steps of the decoder, running a
decode to its end, and reset. -/

namespace Sys2Proof.Machine

/-- What a loop of a command carries: the memory, the read cursor and the write cursor (10_state.md R31). -/
structure Cursors where
  mem : Memory
  r   : Nat
  w   : Nat
deriving DecidableEq, Repr

/-- A loop goes on, or has raised a failure, after which it makes no further access (R203). -/
inductive Flow where
  | go (c : Cursors)
  | raised (c : Cursors) (code : StatusCode)
deriving DecidableEq, Repr

/-- Go on with the next piece unless a failure was raised. -/
def Flow.andThen (f : Flow) (k : Cursors → Flow) : Flow :=
  match f with
  | .go c => k c
  | .raised c code => .raised c code

/-- `put(b)` (R125, R152): the only place that writes; the capacity is tested before the access. -/
def putByte (dst cap : Nat) (b : Byte) (c : Cursors) : Flow :=
  if cap ≤ c.w then .raised c .bufferTooSmall
  else .go { c with mem := c.mem.write (dst + c.w) b, w := c.w + 1 }

/-- `for j := 0 .. L-1: put(MemRead(SRC:p+j, 1))` (R125), the read cursor moving with it. -/
def copyRun (src dst cap : Nat) : Nat → Cursors → Flow
  | 0, c => .go c
  | l + 1, c =>
    (putByte dst cap (c.mem.read (src + c.r)) c).andThen fun c' => copyRun src dst cap l { c' with r := c'.r + 1 }

/-- The encoder's loop (R125). `fuel` bounds its rounds; a message of `n` bytes takes at most `n + 1`. -/
def encodeLoop (src dst n cap : Nat) : Nat → Cursors → Flow
  | 0, c => .go c
  | fuel + 1, c =>
    let run := scanRun c.mem src n c.r
    (putByte dst cap (runLengthByte run.1 run.2) c).andThen fun c1 =>
    (copyRun src dst cap run.1 c1).andThen fun c2 =>
    match run.2 with
    | .cont => encodeLoop src dst n cap fuel c2
    | .zero => encodeLoop src dst n cap fuel { c2 with r := c2.r + 1 }
    | .fin => .go c2

/-- The whole of `ENC`: the loop from cursors at 0, then the terminator injector (R125, R126). -/
def encodeFrame (m : Memory) (src dst n cap : Nat) : Flow :=
  (encodeLoop src dst n cap (n + 1) ⟨m, 0, 0⟩).andThen fun c => putByte dst cap 0x00 c

/-- The data bytes of a block: `b := get(); put(b)` so many times, the source's end tested before the destination's
capacity (R152, R207). -/
def copyBlock (src dst len cap : Nat) : Nat → Cursors → Flow
  | 0, c => .go c
  | k + 1, c =>
    if len ≤ c.r then .raised c .truncatedFrame
    else (putByte dst cap (c.mem.read (src + c.r)) { c with r := c.r + 1 }).andThen fun c' =>
      copyBlock src dst len cap k c'

/-- The buffer a decode reads (R152, R160). -/
def DecodeForm.source : DecodeForm → Buffer
  | .dec => .src
  | .deci => .buf

/-- The buffer a decode writes (R152, R160). -/
def DecodeForm.dest : DecodeForm → Buffer
  | .dec => .dst
  | .deci => .buf

/-- The address of index 0 of what a decode reads. -/
def Job.srcBase (j : Job) (s : State) : Nat := s.addr j.form.source 0

/-- The address of index 0 of what a decode writes. -/
def Job.dstBase (j : Job) (s : State) : Nat := s.addr j.form.dest 0

/-- The byte at a decode's read cursor. -/
def Job.byteAt (j : Job) (s : State) : Byte := s.mem.read (j.srcBase s + j.r)

/-- Put the decode's record back with its cursors and position. -/
def State.withCursors (s : State) (j : Job) (c : Cursors) (stage : DecodeAt) : State :=
  { s with mem := c.mem, job := some { j with r := c.r, w := c.w, stage := stage } }

/-- The operands a decode is issued with (R94): `DEC` takes `DST_CAP`, `DECI` takes its own buffer's length (R160). -/
def State.newJob (s : State) (form : DecodeForm) : Job where
  form := form
  len := s.argLen
  cap := match form with
    | .dec => s.dstCap
    | .deci => s.argLen
  r := 0
  w := 0
  stage := .lengthByte

/-- Issue a decode: the engine is at the first length byte. -/
def State.startDecode (s : State) (form : DecodeForm) : State := { s with job := some (s.newJob form) }

/-- `get` or the peek past the input's end (R155): the decode ends with TruncatedFrame. -/
def State.runOut (s : State) (j : Job) : State :=
  { s with job := some { j with stage := .ended .truncatedFrame } }

/-- The step of the decoder at a length byte `c` (R152): the byte is consumed; 0x00 raises InvalidLengthByte (R156);
else the data bytes are copied, and after a continuation block comes a length byte again, after a bounded one the
follow position. -/
def State.takeLengthByte (s : State) (j : Job) (c : Byte) : State :=
  let c1 : Cursors := ⟨s.mem, j.r + 1, j.w⟩
  if c = 0x00 then s.withCursors j c1 (.ended .invalidLengthByte)
  else
    match copyBlock (j.srcBase s) (j.dstBase s) j.len j.cap (dataCount c) c1 with
    | .go c2 => s.withCursors j c2 (if c = 0xFF then .lengthByte else .follow)
    | .raised c2 code => s.withCursors j c2 (.ended code)

/-- The step of the decoder at a follow position that holds the terminator (R153): consumed, nothing written, success. -/
def State.takeTerminator (s : State) (j : Job) : State :=
  s.withCursors j ⟨s.mem, j.r + 1, j.w⟩ (.ended .ok)

/-- The step of the decoder at a follow position that holds another byte (R85, R152): the implied zero is written, the
byte not consumed. -/
def State.takeImpliedZero (s : State) (j : Job) : State :=
  match putByte (j.dstBase s) j.cap 0x00 ⟨s.mem, j.r, j.w⟩ with
  | .go c => s.withCursors j c .lengthByte
  | .raised c code => s.withCursors j c (.ended code)

/-- How many bytes of its destination a failed decode leaves without a specified value (U2): `DST[0..DST_CAP)`, or for
the in-place form every byte already consumed. -/
def Job.entitled (j : Job) : Nat :=
  match j.form with
  | .dec => j.cap
  | .deci => j.r

/-- The end of a decode (R203): the result registers are posted and the record is gone (R31). -/
def State.finishDecode (s : State) (j : Job) (code : StatusCode) : State :=
  match code with
  | .ok => ({ s with job := none }).postOk j.w
  | _ => (({ s with job := none }).leaveFailed j.form.dest j.entitled).postFailure code

/-- One step of a decode: what the byte at the cursor asks for at the decoder's position, the input's end tested first
(R152, R207). -/
def State.advance (s : State) (j : Job) : State :=
  match j.stage with
  | .lengthByte => if j.r < j.len then s.takeLengthByte j (j.byteAt s) else s.runOut j
  | .follow =>
    if j.r < j.len then (if j.byteAt s = 0x00 then s.takeTerminator j else s.takeImpliedZero j) else s.runOut j
  | .ended code => s.finishDecode j code

/-- The steps of a decode until it has ended. -/
def State.runDecode : Nat → State → State
  | 0, s => s
  | fuel + 1, s =>
    match s.job with
    | none => s
    | some j => State.runDecode fuel (s.advance j)

/-- A whole decode from its issue: every byte takes at most two steps, the end two more and the input's end one. -/
def State.decodeAll (s : State) (form : DecodeForm) : State :=
  State.runDecode (2 * s.argLen + 3) (s.startDecode form)

/-- A row of the length-byte position: it runs where the engine is at a length byte of the input (log 19). -/
def lengthByteRow (c : Byte) (s : State) : Host.Outcome State Fault Refusal :=
  match s.job with
  | some j => if j.stage = .lengthByte ∧ j.r < j.len then .next (s.takeLengthByte j c) else .refused .notAtPosition
  | none => .refused .notAtPosition

/-- A row of the follow position: it runs where the engine is at a follow byte of the input (log 19). -/
def followRow (effect : State → Job → State) (s : State) : Host.Outcome State Fault Refusal :=
  match s.job with
  | some j => if j.stage = .follow ∧ j.r < j.len then .next (effect s j) else .refused .notAtPosition
  | none => .refused .notAtPosition

/-- A status row: it runs where the engine has ended a decode with that code (log 19). -/
def statusRow (code : StatusCode) (s : State) : Host.Outcome State Fault Refusal :=
  match s.job with
  | some j => if j.stage = .ended code then .next (s.finishDecode j code) else .refused .notAtPosition
  | none => .refused .notAtPosition

/-- Run a command's effect unless its operands are refused. -/
def guarded (refusal : Option Refusal) (s : State) : Host.Outcome State Fault Refusal :=
  match refusal with
  | some r => .refused r
  | none => .next s

/-- A free value of the iterator's tail. -/
def freeTail (k : Nat) : RunKind :=
  match Config.freeLen k % 3 with
  | 0 => .cont
  | 1 => .zero
  | _ => .fin

/-- The iterator bank after a reset of a running machine (R34): DONE, the rest free values within their ranges (R29,
R30). -/
def resetIter (cfg : Config) (k : Nat) : Iter :=
  let n := Config.freeLen k % (cfg.nMax + 1)
  ⟨n, Config.freeLen (k + 1) % (n + 1), Config.freeLen (k + 2) % 255, freeTail (k + 3), .done⟩

/-- Reset the registers of a running machine (R34, R230): the engine idle, every register a free value of its width
(R35), `ITER.phase` DONE; memory and placement are the host's and stay (log 5). -/
def State.resetRegisters (s : State) : State :=
  { s with
    argLen := Config.freeLen s.free % 2 ^ s.cfg.width
    dstCap := Config.freeLen (s.free + 1) % 2 ^ s.cfg.width
    rlen := Config.freeLen (s.free + 2) % 2 ^ s.cfg.width
    sdata := Config.freeByte (s.free + 3) 0
    status := (Config.freeByte (s.free + 3) 1).setWidth 2
    svalid := (Config.freeByte (s.free + 3) 2).getLsbD 0
    iter := resetIter s.cfg (s.free + 4)
    job := none
    free := s.free + 8
    specified := Marks.unset }

/-- A reset that finds a command in progress (R34, R232, U13): the bytes it could have written become free values. -/
def State.abandon (s : State) (b : Buffer) (n : Nat) : State := (s.spoil b n).resetRegisters

/-- Reset (R230, R232). -/
def State.applyReset (s : State) : State :=
  match s.job with
  | none => s.resetRegisters
  | some j =>
    match j.form with
    | .dec => s.abandon .dst j.cap
    | .deci => s.abandon .buf j.len

end Sys2Proof.Machine
end

