-- ==== Sys2Proof/Machine/Decoder.lean ====
section
/-! DEFINITION. Family: the Block Decoder, buffer-to-buffer and in place (42_block_decoder.md). -/

namespace Sys2Proof.Machine

/-- `DEC` (R152), one transition from issue to completion (D1). -/
def execDec (s : State) : Host.Outcome State Fault Refusal := guarded s.decRefusal (s.decodeAll .dec)

/-- `DECI` (R160), one transition from issue to completion (D1). -/
def execDeci (s : State) : Host.Outcome State Fault Refusal := guarded s.deciRefusal (s.decodeAll .deci)

end Sys2Proof.Machine
end

