-- ==== Sys2Proof/Machine/Encoder.lean ====
section
/-! DEFINITION. Family: the Block Encoder, buffer-to-buffer and as a lazy sequence (41_block_encoder.md). -/

namespace Sys2Proof.Machine

/-- The end of an `ENC` (R125, R128). -/
def State.finishEncode (s : State) : Flow → State
  | .go c => ({ s with mem := c.mem }).postOk c.w
  | .raised c code => (({ s with mem := c.mem }).leaveFailed .dst s.dstCap).postFailure code

/-- `ENC` (R125). -/
def execEnc (s : State) : Host.Outcome State Fault Refusal :=
  guarded s.encRefusal (s.finishEncode (encodeFrame s.mem (s.addr .src 0) (s.addr .dst 0) s.argLen s.dstCap))

/-- `ENCS.START` (R131): bind the message and rewind. -/
def execEncsStart (s : State) : Host.Outcome State Fault Refusal :=
  guarded s.encsStartRefusal (({ s with iter := ⟨s.argLen, 0, 0, .fin, .head⟩ }).postStatus .ok)

/-- `settle()` (R132): what follows a length byte or a data byte that has been yielded. -/
def Iter.settle (it : Iter) : Iter :=
  if 0 < it.rem then { it with phase := .data }
  else
    match it.tail with
    | .cont => { it with phase := .head }
    | .zero => { it with pos := it.pos + 1, phase := .head }
    | .fin => { it with phase := .term }

/-- `ENCS.NEXT` in phase HEAD: one scan, then the block's length byte (R132). The message is read where `SRC` lies now: if
the host has moved `SRC` since `ENCS.START`, at its new place (DESIGN CHOICE, log 20). -/
def State.nextHead (s : State) : State :=
  let run := scanRun s.mem (s.addr .src 0) s.iter.n s.iter.pos
  ({ s with iter := ({ s.iter with rem := run.1, tail := run.2 }).settle }).yieldByte (runLengthByte run.1 run.2)

/-- `ENCS.NEXT` in phase DATA: the next byte of the block (R132), read where `SRC` lies now (DESIGN CHOICE, log 20). -/
def State.nextData (s : State) : State :=
  ({ s with iter := ({ s.iter with pos := s.iter.pos + 1, rem := s.iter.rem - 1 }).settle }).yieldByte
    (s.mem.read (s.addr .src s.iter.pos))

/-- `ENCS.NEXT` in phase TERM: the terminator injector (R126, R132). -/
def State.nextTerm (s : State) : State := ({ s with iter := { s.iter with phase := .done } }).yieldByte 0x00

/-- `ENCS.NEXT` by the phase of `ITER` (R132). -/
def State.nextByte (s : State) : State :=
  match s.iter.phase with
  | .head => s.nextHead
  | .data => s.nextData
  | .term => s.nextTerm
  | .done => s.yieldNothing

/-- `ENCS.NEXT` (R132). -/
def execEncsNext (s : State) : Host.Outcome State Fault Refusal := guarded s.encsNextRefusal s.nextByte

end Sys2Proof.Machine
end

