-- ==== Sys2Proof/Machine/Follow.lean ====
section
/-! DEFINITION. Family: the rows of the follow position (30_encoding.md R85, 42_block_decoder.md R153). -/

namespace Sys2Proof.Machine

/-- `FP.TERM` (R153): the terminator stripper. -/
def execFpTerm (s : State) : Host.Outcome State Fault Refusal := followRow State.takeTerminator s

/-- `FP.IMPLIED_ZERO` (R85): the byte itself is not consumed and has no effect but that it is not 0x00. -/
def execFpImpliedZero (_b : Byte) (s : State) : Host.Outcome State Fault Refusal := followRow State.takeImpliedZero s

end Sys2Proof.Machine
end

