-- ==== Sys2Proof/Machine/Length.lean ====
section
/-! DEFINITION. Family: the Length Calculator (40_length_calculator.md). -/

namespace Sys2Proof.Machine

/-- `max_encoded_len(n)`, doc00's formula as it stands (R110, R112; 90_conflicts.md C1). -/
def maxEncodedLen (n : Nat) : Nat := n + max 1 ((n + 253) / 254) + 1

/-- `LEN` (R111). -/
def execLen (s : State) : Host.Outcome State Fault Refusal :=
  guarded s.lenRefusal (s.postOk (maxEncodedLen s.argLen))

end Sys2Proof.Machine
end

