-- ==== Sys2Proof/Machine/LengthByte.lean ====
section
/-! DEFINITION. Family: the 256 rows of the length-byte position (30_encoding.md R82, R84; 42_block_decoder.md R152, R156,
R160, R166). Each row is the shared operation at its own value of the length byte. -/

namespace Sys2Proof.Machine

/-- `LB.INVALID` (R156): no length byte, raise InvalidLengthByte. -/
def execLbInvalid (s : State) : Host.Outcome State Fault Refusal := lengthByteRow 0x00 s

/-- `LB.BOUNDED_01` (R84): 0 data bytes, then the follow position. -/
def execLb01 (s : State) : Host.Outcome State Fault Refusal := lengthByteRow 0x01 s

/-- `LB.BOUNDED_02` (R84): 1 data byte, then the follow position. -/
def execLb02 (s : State) : Host.Outcome State Fault Refusal := lengthByteRow 0x02 s

/-- `LB.BOUNDED_03` (R84): 2 data bytes, then the follow position. -/
def execLb03 (s : State) : Host.Outcome State Fault Refusal := lengthByteRow 0x03 s

/-- `LB.BOUNDED_04` (R84): 3 data bytes, then the follow position. -/
def execLb04 (s : State) : Host.Outcome State Fault Refusal := lengthByteRow 0x04 s

/-- `LB.BOUNDED_05` (R84): 4 data bytes, then the follow position. -/
def execLb05 (s : State) : Host.Outcome State Fault Refusal := lengthByteRow 0x05 s

/-- `LB.BOUNDED_06` (R84): 5 data bytes, then the follow position. -/
def execLb06 (s : State) : Host.Outcome State Fault Refusal := lengthByteRow 0x06 s

/-- `LB.BOUNDED_07` (R84): 6 data bytes, then the follow position. -/
def execLb07 (s : State) : Host.Outcome State Fault Refusal := lengthByteRow 0x07 s

/-- `LB.BOUNDED_08` (R84): 7 data bytes, then the follow position. -/
def execLb08 (s : State) : Host.Outcome State Fault Refusal := lengthByteRow 0x08 s

/-- `LB.BOUNDED_09` (R84): 8 data bytes, then the follow position. -/
def execLb09 (s : State) : Host.Outcome State Fault Refusal := lengthByteRow 0x09 s

/-- `LB.BOUNDED_0A` (R84): 9 data bytes, then the follow position. -/
def execLb0A (s : State) : Host.Outcome State Fault Refusal := lengthByteRow 0x0A s

/-- `LB.BOUNDED_0B` (R84): 10 data bytes, then the follow position. -/
def execLb0B (s : State) : Host.Outcome State Fault Refusal := lengthByteRow 0x0B s

/-- `LB.BOUNDED_0C` (R84): 11 data bytes, then the follow position. -/
def execLb0C (s : State) : Host.Outcome State Fault Refusal := lengthByteRow 0x0C s

/-- `LB.BOUNDED_0D` (R84): 12 data bytes, then the follow position. -/
def execLb0D (s : State) : Host.Outcome State Fault Refusal := lengthByteRow 0x0D s

/-- `LB.BOUNDED_0E` (R84): 13 data bytes, then the follow position. -/
def execLb0E (s : State) : Host.Outcome State Fault Refusal := lengthByteRow 0x0E s

/-- `LB.BOUNDED_0F` (R84): 14 data bytes, then the follow position. -/
def execLb0F (s : State) : Host.Outcome State Fault Refusal := lengthByteRow 0x0F s

/-- `LB.BOUNDED_10` (R84): 15 data bytes, then the follow position. -/
def execLb10 (s : State) : Host.Outcome State Fault Refusal := lengthByteRow 0x10 s

/-- `LB.BOUNDED_11` (R84): 16 data bytes, then the follow position. -/
def execLb11 (s : State) : Host.Outcome State Fault Refusal := lengthByteRow 0x11 s

/-- `LB.BOUNDED_12` (R84): 17 data bytes, then the follow position. -/
def execLb12 (s : State) : Host.Outcome State Fault Refusal := lengthByteRow 0x12 s

/-- `LB.BOUNDED_13` (R84): 18 data bytes, then the follow position. -/
def execLb13 (s : State) : Host.Outcome State Fault Refusal := lengthByteRow 0x13 s

/-- `LB.BOUNDED_14` (R84): 19 data bytes, then the follow position. -/
def execLb14 (s : State) : Host.Outcome State Fault Refusal := lengthByteRow 0x14 s

/-- `LB.BOUNDED_15` (R84): 20 data bytes, then the follow position. -/
def execLb15 (s : State) : Host.Outcome State Fault Refusal := lengthByteRow 0x15 s

/-- `LB.BOUNDED_16` (R84): 21 data bytes, then the follow position. -/
def execLb16 (s : State) : Host.Outcome State Fault Refusal := lengthByteRow 0x16 s

/-- `LB.BOUNDED_17` (R84): 22 data bytes, then the follow position. -/
def execLb17 (s : State) : Host.Outcome State Fault Refusal := lengthByteRow 0x17 s

/-- `LB.BOUNDED_18` (R84): 23 data bytes, then the follow position. -/
def execLb18 (s : State) : Host.Outcome State Fault Refusal := lengthByteRow 0x18 s

/-- `LB.BOUNDED_19` (R84): 24 data bytes, then the follow position. -/
def execLb19 (s : State) : Host.Outcome State Fault Refusal := lengthByteRow 0x19 s

/-- `LB.BOUNDED_1A` (R84): 25 data bytes, then the follow position. -/
def execLb1A (s : State) : Host.Outcome State Fault Refusal := lengthByteRow 0x1A s

/-- `LB.BOUNDED_1B` (R84): 26 data bytes, then the follow position. -/
def execLb1B (s : State) : Host.Outcome State Fault Refusal := lengthByteRow 0x1B s

/-- `LB.BOUNDED_1C` (R84): 27 data bytes, then the follow position. -/
def execLb1C (s : State) : Host.Outcome State Fault Refusal := lengthByteRow 0x1C s

/-- `LB.BOUNDED_1D` (R84): 28 data bytes, then the follow position. -/
def execLb1D (s : State) : Host.Outcome State Fault Refusal := lengthByteRow 0x1D s

/-- `LB.BOUNDED_1E` (R84): 29 data bytes, then the follow position. -/
def execLb1E (s : State) : Host.Outcome State Fault Refusal := lengthByteRow 0x1E s

/-- `LB.BOUNDED_1F` (R84): 30 data bytes, then the follow position. -/
def execLb1F (s : State) : Host.Outcome State Fault Refusal := lengthByteRow 0x1F s

/-- `LB.BOUNDED_20` (R84): 31 data bytes, then the follow position. -/
def execLb20 (s : State) : Host.Outcome State Fault Refusal := lengthByteRow 0x20 s

/-- `LB.BOUNDED_21` (R84): 32 data bytes, then the follow position. -/
def execLb21 (s : State) : Host.Outcome State Fault Refusal := lengthByteRow 0x21 s

/-- `LB.BOUNDED_22` (R84): 33 data bytes, then the follow position. -/
def execLb22 (s : State) : Host.Outcome State Fault Refusal := lengthByteRow 0x22 s

/-- `LB.BOUNDED_23` (R84): 34 data bytes, then the follow position. -/
def execLb23 (s : State) : Host.Outcome State Fault Refusal := lengthByteRow 0x23 s

/-- `LB.BOUNDED_24` (R84): 35 data bytes, then the follow position. -/
def execLb24 (s : State) : Host.Outcome State Fault Refusal := lengthByteRow 0x24 s

/-- `LB.BOUNDED_25` (R84): 36 data bytes, then the follow position. -/
def execLb25 (s : State) : Host.Outcome State Fault Refusal := lengthByteRow 0x25 s

/-- `LB.BOUNDED_26` (R84): 37 data bytes, then the follow position. -/
def execLb26 (s : State) : Host.Outcome State Fault Refusal := lengthByteRow 0x26 s

/-- `LB.BOUNDED_27` (R84): 38 data bytes, then the follow position. -/
def execLb27 (s : State) : Host.Outcome State Fault Refusal := lengthByteRow 0x27 s

/-- `LB.BOUNDED_28` (R84): 39 data bytes, then the follow position. -/
def execLb28 (s : State) : Host.Outcome State Fault Refusal := lengthByteRow 0x28 s

/-- `LB.BOUNDED_29` (R84): 40 data bytes, then the follow position. -/
def execLb29 (s : State) : Host.Outcome State Fault Refusal := lengthByteRow 0x29 s

/-- `LB.BOUNDED_2A` (R84): 41 data bytes, then the follow position. -/
def execLb2A (s : State) : Host.Outcome State Fault Refusal := lengthByteRow 0x2A s

/-- `LB.BOUNDED_2B` (R84): 42 data bytes, then the follow position. -/
def execLb2B (s : State) : Host.Outcome State Fault Refusal := lengthByteRow 0x2B s

/-- `LB.BOUNDED_2C` (R84): 43 data bytes, then the follow position. -/
def execLb2C (s : State) : Host.Outcome State Fault Refusal := lengthByteRow 0x2C s

/-- `LB.BOUNDED_2D` (R84): 44 data bytes, then the follow position. -/
def execLb2D (s : State) : Host.Outcome State Fault Refusal := lengthByteRow 0x2D s

/-- `LB.BOUNDED_2E` (R84): 45 data bytes, then the follow position. -/
def execLb2E (s : State) : Host.Outcome State Fault Refusal := lengthByteRow 0x2E s

/-- `LB.BOUNDED_2F` (R84): 46 data bytes, then the follow position. -/
def execLb2F (s : State) : Host.Outcome State Fault Refusal := lengthByteRow 0x2F s

/-- `LB.BOUNDED_30` (R84): 47 data bytes, then the follow position. -/
def execLb30 (s : State) : Host.Outcome State Fault Refusal := lengthByteRow 0x30 s

/-- `LB.BOUNDED_31` (R84): 48 data bytes, then the follow position. -/
def execLb31 (s : State) : Host.Outcome State Fault Refusal := lengthByteRow 0x31 s

/-- `LB.BOUNDED_32` (R84): 49 data bytes, then the follow position. -/
def execLb32 (s : State) : Host.Outcome State Fault Refusal := lengthByteRow 0x32 s

/-- `LB.BOUNDED_33` (R84): 50 data bytes, then the follow position. -/
def execLb33 (s : State) : Host.Outcome State Fault Refusal := lengthByteRow 0x33 s

/-- `LB.BOUNDED_34` (R84): 51 data bytes, then the follow position. -/
def execLb34 (s : State) : Host.Outcome State Fault Refusal := lengthByteRow 0x34 s

/-- `LB.BOUNDED_35` (R84): 52 data bytes, then the follow position. -/
def execLb35 (s : State) : Host.Outcome State Fault Refusal := lengthByteRow 0x35 s

/-- `LB.BOUNDED_36` (R84): 53 data bytes, then the follow position. -/
def execLb36 (s : State) : Host.Outcome State Fault Refusal := lengthByteRow 0x36 s

/-- `LB.BOUNDED_37` (R84): 54 data bytes, then the follow position. -/
def execLb37 (s : State) : Host.Outcome State Fault Refusal := lengthByteRow 0x37 s

/-- `LB.BOUNDED_38` (R84): 55 data bytes, then the follow position. -/
def execLb38 (s : State) : Host.Outcome State Fault Refusal := lengthByteRow 0x38 s

/-- `LB.BOUNDED_39` (R84): 56 data bytes, then the follow position. -/
def execLb39 (s : State) : Host.Outcome State Fault Refusal := lengthByteRow 0x39 s

/-- `LB.BOUNDED_3A` (R84): 57 data bytes, then the follow position. -/
def execLb3A (s : State) : Host.Outcome State Fault Refusal := lengthByteRow 0x3A s

/-- `LB.BOUNDED_3B` (R84): 58 data bytes, then the follow position. -/
def execLb3B (s : State) : Host.Outcome State Fault Refusal := lengthByteRow 0x3B s

/-- `LB.BOUNDED_3C` (R84): 59 data bytes, then the follow position. -/
def execLb3C (s : State) : Host.Outcome State Fault Refusal := lengthByteRow 0x3C s

/-- `LB.BOUNDED_3D` (R84): 60 data bytes, then the follow position. -/
def execLb3D (s : State) : Host.Outcome State Fault Refusal := lengthByteRow 0x3D s

/-- `LB.BOUNDED_3E` (R84): 61 data bytes, then the follow position. -/
def execLb3E (s : State) : Host.Outcome State Fault Refusal := lengthByteRow 0x3E s

/-- `LB.BOUNDED_3F` (R84): 62 data bytes, then the follow position. -/
def execLb3F (s : State) : Host.Outcome State Fault Refusal := lengthByteRow 0x3F s

/-- `LB.BOUNDED_40` (R84): 63 data bytes, then the follow position. -/
def execLb40 (s : State) : Host.Outcome State Fault Refusal := lengthByteRow 0x40 s

/-- `LB.BOUNDED_41` (R84): 64 data bytes, then the follow position. -/
def execLb41 (s : State) : Host.Outcome State Fault Refusal := lengthByteRow 0x41 s

/-- `LB.BOUNDED_42` (R84): 65 data bytes, then the follow position. -/
def execLb42 (s : State) : Host.Outcome State Fault Refusal := lengthByteRow 0x42 s

/-- `LB.BOUNDED_43` (R84): 66 data bytes, then the follow position. -/
def execLb43 (s : State) : Host.Outcome State Fault Refusal := lengthByteRow 0x43 s

/-- `LB.BOUNDED_44` (R84): 67 data bytes, then the follow position. -/
def execLb44 (s : State) : Host.Outcome State Fault Refusal := lengthByteRow 0x44 s

/-- `LB.BOUNDED_45` (R84): 68 data bytes, then the follow position. -/
def execLb45 (s : State) : Host.Outcome State Fault Refusal := lengthByteRow 0x45 s

/-- `LB.BOUNDED_46` (R84): 69 data bytes, then the follow position. -/
def execLb46 (s : State) : Host.Outcome State Fault Refusal := lengthByteRow 0x46 s

/-- `LB.BOUNDED_47` (R84): 70 data bytes, then the follow position. -/
def execLb47 (s : State) : Host.Outcome State Fault Refusal := lengthByteRow 0x47 s

/-- `LB.BOUNDED_48` (R84): 71 data bytes, then the follow position. -/
def execLb48 (s : State) : Host.Outcome State Fault Refusal := lengthByteRow 0x48 s

/-- `LB.BOUNDED_49` (R84): 72 data bytes, then the follow position. -/
def execLb49 (s : State) : Host.Outcome State Fault Refusal := lengthByteRow 0x49 s

/-- `LB.BOUNDED_4A` (R84): 73 data bytes, then the follow position. -/
def execLb4A (s : State) : Host.Outcome State Fault Refusal := lengthByteRow 0x4A s

/-- `LB.BOUNDED_4B` (R84): 74 data bytes, then the follow position. -/
def execLb4B (s : State) : Host.Outcome State Fault Refusal := lengthByteRow 0x4B s

/-- `LB.BOUNDED_4C` (R84): 75 data bytes, then the follow position. -/
def execLb4C (s : State) : Host.Outcome State Fault Refusal := lengthByteRow 0x4C s

/-- `LB.BOUNDED_4D` (R84): 76 data bytes, then the follow position. -/
def execLb4D (s : State) : Host.Outcome State Fault Refusal := lengthByteRow 0x4D s

/-- `LB.BOUNDED_4E` (R84): 77 data bytes, then the follow position. -/
def execLb4E (s : State) : Host.Outcome State Fault Refusal := lengthByteRow 0x4E s

/-- `LB.BOUNDED_4F` (R84): 78 data bytes, then the follow position. -/
def execLb4F (s : State) : Host.Outcome State Fault Refusal := lengthByteRow 0x4F s

/-- `LB.BOUNDED_50` (R84): 79 data bytes, then the follow position. -/
def execLb50 (s : State) : Host.Outcome State Fault Refusal := lengthByteRow 0x50 s

/-- `LB.BOUNDED_51` (R84): 80 data bytes, then the follow position. -/
def execLb51 (s : State) : Host.Outcome State Fault Refusal := lengthByteRow 0x51 s

/-- `LB.BOUNDED_52` (R84): 81 data bytes, then the follow position. -/
def execLb52 (s : State) : Host.Outcome State Fault Refusal := lengthByteRow 0x52 s

/-- `LB.BOUNDED_53` (R84): 82 data bytes, then the follow position. -/
def execLb53 (s : State) : Host.Outcome State Fault Refusal := lengthByteRow 0x53 s

/-- `LB.BOUNDED_54` (R84): 83 data bytes, then the follow position. -/
def execLb54 (s : State) : Host.Outcome State Fault Refusal := lengthByteRow 0x54 s

/-- `LB.BOUNDED_55` (R84): 84 data bytes, then the follow position. -/
def execLb55 (s : State) : Host.Outcome State Fault Refusal := lengthByteRow 0x55 s

/-- `LB.BOUNDED_56` (R84): 85 data bytes, then the follow position. -/
def execLb56 (s : State) : Host.Outcome State Fault Refusal := lengthByteRow 0x56 s

/-- `LB.BOUNDED_57` (R84): 86 data bytes, then the follow position. -/
def execLb57 (s : State) : Host.Outcome State Fault Refusal := lengthByteRow 0x57 s

/-- `LB.BOUNDED_58` (R84): 87 data bytes, then the follow position. -/
def execLb58 (s : State) : Host.Outcome State Fault Refusal := lengthByteRow 0x58 s

/-- `LB.BOUNDED_59` (R84): 88 data bytes, then the follow position. -/
def execLb59 (s : State) : Host.Outcome State Fault Refusal := lengthByteRow 0x59 s

/-- `LB.BOUNDED_5A` (R84): 89 data bytes, then the follow position. -/
def execLb5A (s : State) : Host.Outcome State Fault Refusal := lengthByteRow 0x5A s

/-- `LB.BOUNDED_5B` (R84): 90 data bytes, then the follow position. -/
def execLb5B (s : State) : Host.Outcome State Fault Refusal := lengthByteRow 0x5B s

/-- `LB.BOUNDED_5C` (R84): 91 data bytes, then the follow position. -/
def execLb5C (s : State) : Host.Outcome State Fault Refusal := lengthByteRow 0x5C s

/-- `LB.BOUNDED_5D` (R84): 92 data bytes, then the follow position. -/
def execLb5D (s : State) : Host.Outcome State Fault Refusal := lengthByteRow 0x5D s

/-- `LB.BOUNDED_5E` (R84): 93 data bytes, then the follow position. -/
def execLb5E (s : State) : Host.Outcome State Fault Refusal := lengthByteRow 0x5E s

/-- `LB.BOUNDED_5F` (R84): 94 data bytes, then the follow position. -/
def execLb5F (s : State) : Host.Outcome State Fault Refusal := lengthByteRow 0x5F s

/-- `LB.BOUNDED_60` (R84): 95 data bytes, then the follow position. -/
def execLb60 (s : State) : Host.Outcome State Fault Refusal := lengthByteRow 0x60 s

/-- `LB.BOUNDED_61` (R84): 96 data bytes, then the follow position. -/
def execLb61 (s : State) : Host.Outcome State Fault Refusal := lengthByteRow 0x61 s

/-- `LB.BOUNDED_62` (R84): 97 data bytes, then the follow position. -/
def execLb62 (s : State) : Host.Outcome State Fault Refusal := lengthByteRow 0x62 s

/-- `LB.BOUNDED_63` (R84): 98 data bytes, then the follow position. -/
def execLb63 (s : State) : Host.Outcome State Fault Refusal := lengthByteRow 0x63 s

/-- `LB.BOUNDED_64` (R84): 99 data bytes, then the follow position. -/
def execLb64 (s : State) : Host.Outcome State Fault Refusal := lengthByteRow 0x64 s

/-- `LB.BOUNDED_65` (R84): 100 data bytes, then the follow position. -/
def execLb65 (s : State) : Host.Outcome State Fault Refusal := lengthByteRow 0x65 s

/-- `LB.BOUNDED_66` (R84): 101 data bytes, then the follow position. -/
def execLb66 (s : State) : Host.Outcome State Fault Refusal := lengthByteRow 0x66 s

/-- `LB.BOUNDED_67` (R84): 102 data bytes, then the follow position. -/
def execLb67 (s : State) : Host.Outcome State Fault Refusal := lengthByteRow 0x67 s

/-- `LB.BOUNDED_68` (R84): 103 data bytes, then the follow position. -/
def execLb68 (s : State) : Host.Outcome State Fault Refusal := lengthByteRow 0x68 s

/-- `LB.BOUNDED_69` (R84): 104 data bytes, then the follow position. -/
def execLb69 (s : State) : Host.Outcome State Fault Refusal := lengthByteRow 0x69 s

/-- `LB.BOUNDED_6A` (R84): 105 data bytes, then the follow position. -/
def execLb6A (s : State) : Host.Outcome State Fault Refusal := lengthByteRow 0x6A s

/-- `LB.BOUNDED_6B` (R84): 106 data bytes, then the follow position. -/
def execLb6B (s : State) : Host.Outcome State Fault Refusal := lengthByteRow 0x6B s

/-- `LB.BOUNDED_6C` (R84): 107 data bytes, then the follow position. -/
def execLb6C (s : State) : Host.Outcome State Fault Refusal := lengthByteRow 0x6C s

/-- `LB.BOUNDED_6D` (R84): 108 data bytes, then the follow position. -/
def execLb6D (s : State) : Host.Outcome State Fault Refusal := lengthByteRow 0x6D s

/-- `LB.BOUNDED_6E` (R84): 109 data bytes, then the follow position. -/
def execLb6E (s : State) : Host.Outcome State Fault Refusal := lengthByteRow 0x6E s

/-- `LB.BOUNDED_6F` (R84): 110 data bytes, then the follow position. -/
def execLb6F (s : State) : Host.Outcome State Fault Refusal := lengthByteRow 0x6F s

/-- `LB.BOUNDED_70` (R84): 111 data bytes, then the follow position. -/
def execLb70 (s : State) : Host.Outcome State Fault Refusal := lengthByteRow 0x70 s

/-- `LB.BOUNDED_71` (R84): 112 data bytes, then the follow position. -/
def execLb71 (s : State) : Host.Outcome State Fault Refusal := lengthByteRow 0x71 s

/-- `LB.BOUNDED_72` (R84): 113 data bytes, then the follow position. -/
def execLb72 (s : State) : Host.Outcome State Fault Refusal := lengthByteRow 0x72 s

/-- `LB.BOUNDED_73` (R84): 114 data bytes, then the follow position. -/
def execLb73 (s : State) : Host.Outcome State Fault Refusal := lengthByteRow 0x73 s

/-- `LB.BOUNDED_74` (R84): 115 data bytes, then the follow position. -/
def execLb74 (s : State) : Host.Outcome State Fault Refusal := lengthByteRow 0x74 s

/-- `LB.BOUNDED_75` (R84): 116 data bytes, then the follow position. -/
def execLb75 (s : State) : Host.Outcome State Fault Refusal := lengthByteRow 0x75 s

/-- `LB.BOUNDED_76` (R84): 117 data bytes, then the follow position. -/
def execLb76 (s : State) : Host.Outcome State Fault Refusal := lengthByteRow 0x76 s

/-- `LB.BOUNDED_77` (R84): 118 data bytes, then the follow position. -/
def execLb77 (s : State) : Host.Outcome State Fault Refusal := lengthByteRow 0x77 s

/-- `LB.BOUNDED_78` (R84): 119 data bytes, then the follow position. -/
def execLb78 (s : State) : Host.Outcome State Fault Refusal := lengthByteRow 0x78 s

/-- `LB.BOUNDED_79` (R84): 120 data bytes, then the follow position. -/
def execLb79 (s : State) : Host.Outcome State Fault Refusal := lengthByteRow 0x79 s

/-- `LB.BOUNDED_7A` (R84): 121 data bytes, then the follow position. -/
def execLb7A (s : State) : Host.Outcome State Fault Refusal := lengthByteRow 0x7A s

/-- `LB.BOUNDED_7B` (R84): 122 data bytes, then the follow position. -/
def execLb7B (s : State) : Host.Outcome State Fault Refusal := lengthByteRow 0x7B s

/-- `LB.BOUNDED_7C` (R84): 123 data bytes, then the follow position. -/
def execLb7C (s : State) : Host.Outcome State Fault Refusal := lengthByteRow 0x7C s

/-- `LB.BOUNDED_7D` (R84): 124 data bytes, then the follow position. -/
def execLb7D (s : State) : Host.Outcome State Fault Refusal := lengthByteRow 0x7D s

/-- `LB.BOUNDED_7E` (R84): 125 data bytes, then the follow position. -/
def execLb7E (s : State) : Host.Outcome State Fault Refusal := lengthByteRow 0x7E s

/-- `LB.BOUNDED_7F` (R84): 126 data bytes, then the follow position. -/
def execLb7F (s : State) : Host.Outcome State Fault Refusal := lengthByteRow 0x7F s

/-- `LB.BOUNDED_80` (R84): 127 data bytes, then the follow position. -/
def execLb80 (s : State) : Host.Outcome State Fault Refusal := lengthByteRow 0x80 s

/-- `LB.BOUNDED_81` (R84): 128 data bytes, then the follow position. -/
def execLb81 (s : State) : Host.Outcome State Fault Refusal := lengthByteRow 0x81 s

/-- `LB.BOUNDED_82` (R84): 129 data bytes, then the follow position. -/
def execLb82 (s : State) : Host.Outcome State Fault Refusal := lengthByteRow 0x82 s

/-- `LB.BOUNDED_83` (R84): 130 data bytes, then the follow position. -/
def execLb83 (s : State) : Host.Outcome State Fault Refusal := lengthByteRow 0x83 s

/-- `LB.BOUNDED_84` (R84): 131 data bytes, then the follow position. -/
def execLb84 (s : State) : Host.Outcome State Fault Refusal := lengthByteRow 0x84 s

/-- `LB.BOUNDED_85` (R84): 132 data bytes, then the follow position. -/
def execLb85 (s : State) : Host.Outcome State Fault Refusal := lengthByteRow 0x85 s

/-- `LB.BOUNDED_86` (R84): 133 data bytes, then the follow position. -/
def execLb86 (s : State) : Host.Outcome State Fault Refusal := lengthByteRow 0x86 s

/-- `LB.BOUNDED_87` (R84): 134 data bytes, then the follow position. -/
def execLb87 (s : State) : Host.Outcome State Fault Refusal := lengthByteRow 0x87 s

/-- `LB.BOUNDED_88` (R84): 135 data bytes, then the follow position. -/
def execLb88 (s : State) : Host.Outcome State Fault Refusal := lengthByteRow 0x88 s

/-- `LB.BOUNDED_89` (R84): 136 data bytes, then the follow position. -/
def execLb89 (s : State) : Host.Outcome State Fault Refusal := lengthByteRow 0x89 s

/-- `LB.BOUNDED_8A` (R84): 137 data bytes, then the follow position. -/
def execLb8A (s : State) : Host.Outcome State Fault Refusal := lengthByteRow 0x8A s

/-- `LB.BOUNDED_8B` (R84): 138 data bytes, then the follow position. -/
def execLb8B (s : State) : Host.Outcome State Fault Refusal := lengthByteRow 0x8B s

/-- `LB.BOUNDED_8C` (R84): 139 data bytes, then the follow position. -/
def execLb8C (s : State) : Host.Outcome State Fault Refusal := lengthByteRow 0x8C s

/-- `LB.BOUNDED_8D` (R84): 140 data bytes, then the follow position. -/
def execLb8D (s : State) : Host.Outcome State Fault Refusal := lengthByteRow 0x8D s

/-- `LB.BOUNDED_8E` (R84): 141 data bytes, then the follow position. -/
def execLb8E (s : State) : Host.Outcome State Fault Refusal := lengthByteRow 0x8E s

/-- `LB.BOUNDED_8F` (R84): 142 data bytes, then the follow position. -/
def execLb8F (s : State) : Host.Outcome State Fault Refusal := lengthByteRow 0x8F s

/-- `LB.BOUNDED_90` (R84): 143 data bytes, then the follow position. -/
def execLb90 (s : State) : Host.Outcome State Fault Refusal := lengthByteRow 0x90 s

/-- `LB.BOUNDED_91` (R84): 144 data bytes, then the follow position. -/
def execLb91 (s : State) : Host.Outcome State Fault Refusal := lengthByteRow 0x91 s

/-- `LB.BOUNDED_92` (R84): 145 data bytes, then the follow position. -/
def execLb92 (s : State) : Host.Outcome State Fault Refusal := lengthByteRow 0x92 s

/-- `LB.BOUNDED_93` (R84): 146 data bytes, then the follow position. -/
def execLb93 (s : State) : Host.Outcome State Fault Refusal := lengthByteRow 0x93 s

/-- `LB.BOUNDED_94` (R84): 147 data bytes, then the follow position. -/
def execLb94 (s : State) : Host.Outcome State Fault Refusal := lengthByteRow 0x94 s

/-- `LB.BOUNDED_95` (R84): 148 data bytes, then the follow position. -/
def execLb95 (s : State) : Host.Outcome State Fault Refusal := lengthByteRow 0x95 s

/-- `LB.BOUNDED_96` (R84): 149 data bytes, then the follow position. -/
def execLb96 (s : State) : Host.Outcome State Fault Refusal := lengthByteRow 0x96 s

/-- `LB.BOUNDED_97` (R84): 150 data bytes, then the follow position. -/
def execLb97 (s : State) : Host.Outcome State Fault Refusal := lengthByteRow 0x97 s

/-- `LB.BOUNDED_98` (R84): 151 data bytes, then the follow position. -/
def execLb98 (s : State) : Host.Outcome State Fault Refusal := lengthByteRow 0x98 s

/-- `LB.BOUNDED_99` (R84): 152 data bytes, then the follow position. -/
def execLb99 (s : State) : Host.Outcome State Fault Refusal := lengthByteRow 0x99 s

/-- `LB.BOUNDED_9A` (R84): 153 data bytes, then the follow position. -/
def execLb9A (s : State) : Host.Outcome State Fault Refusal := lengthByteRow 0x9A s

/-- `LB.BOUNDED_9B` (R84): 154 data bytes, then the follow position. -/
def execLb9B (s : State) : Host.Outcome State Fault Refusal := lengthByteRow 0x9B s

/-- `LB.BOUNDED_9C` (R84): 155 data bytes, then the follow position. -/
def execLb9C (s : State) : Host.Outcome State Fault Refusal := lengthByteRow 0x9C s

/-- `LB.BOUNDED_9D` (R84): 156 data bytes, then the follow position. -/
def execLb9D (s : State) : Host.Outcome State Fault Refusal := lengthByteRow 0x9D s

/-- `LB.BOUNDED_9E` (R84): 157 data bytes, then the follow position. -/
def execLb9E (s : State) : Host.Outcome State Fault Refusal := lengthByteRow 0x9E s

/-- `LB.BOUNDED_9F` (R84): 158 data bytes, then the follow position. -/
def execLb9F (s : State) : Host.Outcome State Fault Refusal := lengthByteRow 0x9F s

/-- `LB.BOUNDED_A0` (R84): 159 data bytes, then the follow position. -/
def execLbA0 (s : State) : Host.Outcome State Fault Refusal := lengthByteRow 0xA0 s

/-- `LB.BOUNDED_A1` (R84): 160 data bytes, then the follow position. -/
def execLbA1 (s : State) : Host.Outcome State Fault Refusal := lengthByteRow 0xA1 s

/-- `LB.BOUNDED_A2` (R84): 161 data bytes, then the follow position. -/
def execLbA2 (s : State) : Host.Outcome State Fault Refusal := lengthByteRow 0xA2 s

/-- `LB.BOUNDED_A3` (R84): 162 data bytes, then the follow position. -/
def execLbA3 (s : State) : Host.Outcome State Fault Refusal := lengthByteRow 0xA3 s

/-- `LB.BOUNDED_A4` (R84): 163 data bytes, then the follow position. -/
def execLbA4 (s : State) : Host.Outcome State Fault Refusal := lengthByteRow 0xA4 s

/-- `LB.BOUNDED_A5` (R84): 164 data bytes, then the follow position. -/
def execLbA5 (s : State) : Host.Outcome State Fault Refusal := lengthByteRow 0xA5 s

/-- `LB.BOUNDED_A6` (R84): 165 data bytes, then the follow position. -/
def execLbA6 (s : State) : Host.Outcome State Fault Refusal := lengthByteRow 0xA6 s

/-- `LB.BOUNDED_A7` (R84): 166 data bytes, then the follow position. -/
def execLbA7 (s : State) : Host.Outcome State Fault Refusal := lengthByteRow 0xA7 s

/-- `LB.BOUNDED_A8` (R84): 167 data bytes, then the follow position. -/
def execLbA8 (s : State) : Host.Outcome State Fault Refusal := lengthByteRow 0xA8 s

/-- `LB.BOUNDED_A9` (R84): 168 data bytes, then the follow position. -/
def execLbA9 (s : State) : Host.Outcome State Fault Refusal := lengthByteRow 0xA9 s

/-- `LB.BOUNDED_AA` (R84): 169 data bytes, then the follow position. -/
def execLbAA (s : State) : Host.Outcome State Fault Refusal := lengthByteRow 0xAA s

/-- `LB.BOUNDED_AB` (R84): 170 data bytes, then the follow position. -/
def execLbAB (s : State) : Host.Outcome State Fault Refusal := lengthByteRow 0xAB s

/-- `LB.BOUNDED_AC` (R84): 171 data bytes, then the follow position. -/
def execLbAC (s : State) : Host.Outcome State Fault Refusal := lengthByteRow 0xAC s

/-- `LB.BOUNDED_AD` (R84): 172 data bytes, then the follow position. -/
def execLbAD (s : State) : Host.Outcome State Fault Refusal := lengthByteRow 0xAD s

/-- `LB.BOUNDED_AE` (R84): 173 data bytes, then the follow position. -/
def execLbAE (s : State) : Host.Outcome State Fault Refusal := lengthByteRow 0xAE s

/-- `LB.BOUNDED_AF` (R84): 174 data bytes, then the follow position. -/
def execLbAF (s : State) : Host.Outcome State Fault Refusal := lengthByteRow 0xAF s

/-- `LB.BOUNDED_B0` (R84): 175 data bytes, then the follow position. -/
def execLbB0 (s : State) : Host.Outcome State Fault Refusal := lengthByteRow 0xB0 s

/-- `LB.BOUNDED_B1` (R84): 176 data bytes, then the follow position. -/
def execLbB1 (s : State) : Host.Outcome State Fault Refusal := lengthByteRow 0xB1 s

/-- `LB.BOUNDED_B2` (R84): 177 data bytes, then the follow position. -/
def execLbB2 (s : State) : Host.Outcome State Fault Refusal := lengthByteRow 0xB2 s

/-- `LB.BOUNDED_B3` (R84): 178 data bytes, then the follow position. -/
def execLbB3 (s : State) : Host.Outcome State Fault Refusal := lengthByteRow 0xB3 s

/-- `LB.BOUNDED_B4` (R84): 179 data bytes, then the follow position. -/
def execLbB4 (s : State) : Host.Outcome State Fault Refusal := lengthByteRow 0xB4 s

/-- `LB.BOUNDED_B5` (R84): 180 data bytes, then the follow position. -/
def execLbB5 (s : State) : Host.Outcome State Fault Refusal := lengthByteRow 0xB5 s

/-- `LB.BOUNDED_B6` (R84): 181 data bytes, then the follow position. -/
def execLbB6 (s : State) : Host.Outcome State Fault Refusal := lengthByteRow 0xB6 s

/-- `LB.BOUNDED_B7` (R84): 182 data bytes, then the follow position. -/
def execLbB7 (s : State) : Host.Outcome State Fault Refusal := lengthByteRow 0xB7 s

/-- `LB.BOUNDED_B8` (R84): 183 data bytes, then the follow position. -/
def execLbB8 (s : State) : Host.Outcome State Fault Refusal := lengthByteRow 0xB8 s

/-- `LB.BOUNDED_B9` (R84): 184 data bytes, then the follow position. -/
def execLbB9 (s : State) : Host.Outcome State Fault Refusal := lengthByteRow 0xB9 s

/-- `LB.BOUNDED_BA` (R84): 185 data bytes, then the follow position. -/
def execLbBA (s : State) : Host.Outcome State Fault Refusal := lengthByteRow 0xBA s

/-- `LB.BOUNDED_BB` (R84): 186 data bytes, then the follow position. -/
def execLbBB (s : State) : Host.Outcome State Fault Refusal := lengthByteRow 0xBB s

/-- `LB.BOUNDED_BC` (R84): 187 data bytes, then the follow position. -/
def execLbBC (s : State) : Host.Outcome State Fault Refusal := lengthByteRow 0xBC s

/-- `LB.BOUNDED_BD` (R84): 188 data bytes, then the follow position. -/
def execLbBD (s : State) : Host.Outcome State Fault Refusal := lengthByteRow 0xBD s

/-- `LB.BOUNDED_BE` (R84): 189 data bytes, then the follow position. -/
def execLbBE (s : State) : Host.Outcome State Fault Refusal := lengthByteRow 0xBE s

/-- `LB.BOUNDED_BF` (R84): 190 data bytes, then the follow position. -/
def execLbBF (s : State) : Host.Outcome State Fault Refusal := lengthByteRow 0xBF s

/-- `LB.BOUNDED_C0` (R84): 191 data bytes, then the follow position. -/
def execLbC0 (s : State) : Host.Outcome State Fault Refusal := lengthByteRow 0xC0 s

/-- `LB.BOUNDED_C1` (R84): 192 data bytes, then the follow position. -/
def execLbC1 (s : State) : Host.Outcome State Fault Refusal := lengthByteRow 0xC1 s

/-- `LB.BOUNDED_C2` (R84): 193 data bytes, then the follow position. -/
def execLbC2 (s : State) : Host.Outcome State Fault Refusal := lengthByteRow 0xC2 s

/-- `LB.BOUNDED_C3` (R84): 194 data bytes, then the follow position. -/
def execLbC3 (s : State) : Host.Outcome State Fault Refusal := lengthByteRow 0xC3 s

/-- `LB.BOUNDED_C4` (R84): 195 data bytes, then the follow position. -/
def execLbC4 (s : State) : Host.Outcome State Fault Refusal := lengthByteRow 0xC4 s

/-- `LB.BOUNDED_C5` (R84): 196 data bytes, then the follow position. -/
def execLbC5 (s : State) : Host.Outcome State Fault Refusal := lengthByteRow 0xC5 s

/-- `LB.BOUNDED_C6` (R84): 197 data bytes, then the follow position. -/
def execLbC6 (s : State) : Host.Outcome State Fault Refusal := lengthByteRow 0xC6 s

/-- `LB.BOUNDED_C7` (R84): 198 data bytes, then the follow position. -/
def execLbC7 (s : State) : Host.Outcome State Fault Refusal := lengthByteRow 0xC7 s

/-- `LB.BOUNDED_C8` (R84): 199 data bytes, then the follow position. -/
def execLbC8 (s : State) : Host.Outcome State Fault Refusal := lengthByteRow 0xC8 s

/-- `LB.BOUNDED_C9` (R84): 200 data bytes, then the follow position. -/
def execLbC9 (s : State) : Host.Outcome State Fault Refusal := lengthByteRow 0xC9 s

/-- `LB.BOUNDED_CA` (R84): 201 data bytes, then the follow position. -/
def execLbCA (s : State) : Host.Outcome State Fault Refusal := lengthByteRow 0xCA s

/-- `LB.BOUNDED_CB` (R84): 202 data bytes, then the follow position. -/
def execLbCB (s : State) : Host.Outcome State Fault Refusal := lengthByteRow 0xCB s

/-- `LB.BOUNDED_CC` (R84): 203 data bytes, then the follow position. -/
def execLbCC (s : State) : Host.Outcome State Fault Refusal := lengthByteRow 0xCC s

/-- `LB.BOUNDED_CD` (R84): 204 data bytes, then the follow position. -/
def execLbCD (s : State) : Host.Outcome State Fault Refusal := lengthByteRow 0xCD s

/-- `LB.BOUNDED_CE` (R84): 205 data bytes, then the follow position. -/
def execLbCE (s : State) : Host.Outcome State Fault Refusal := lengthByteRow 0xCE s

/-- `LB.BOUNDED_CF` (R84): 206 data bytes, then the follow position. -/
def execLbCF (s : State) : Host.Outcome State Fault Refusal := lengthByteRow 0xCF s

/-- `LB.BOUNDED_D0` (R84): 207 data bytes, then the follow position. -/
def execLbD0 (s : State) : Host.Outcome State Fault Refusal := lengthByteRow 0xD0 s

/-- `LB.BOUNDED_D1` (R84): 208 data bytes, then the follow position. -/
def execLbD1 (s : State) : Host.Outcome State Fault Refusal := lengthByteRow 0xD1 s

/-- `LB.BOUNDED_D2` (R84): 209 data bytes, then the follow position. -/
def execLbD2 (s : State) : Host.Outcome State Fault Refusal := lengthByteRow 0xD2 s

/-- `LB.BOUNDED_D3` (R84): 210 data bytes, then the follow position. -/
def execLbD3 (s : State) : Host.Outcome State Fault Refusal := lengthByteRow 0xD3 s

/-- `LB.BOUNDED_D4` (R84): 211 data bytes, then the follow position. -/
def execLbD4 (s : State) : Host.Outcome State Fault Refusal := lengthByteRow 0xD4 s

/-- `LB.BOUNDED_D5` (R84): 212 data bytes, then the follow position. -/
def execLbD5 (s : State) : Host.Outcome State Fault Refusal := lengthByteRow 0xD5 s

/-- `LB.BOUNDED_D6` (R84): 213 data bytes, then the follow position. -/
def execLbD6 (s : State) : Host.Outcome State Fault Refusal := lengthByteRow 0xD6 s

/-- `LB.BOUNDED_D7` (R84): 214 data bytes, then the follow position. -/
def execLbD7 (s : State) : Host.Outcome State Fault Refusal := lengthByteRow 0xD7 s

/-- `LB.BOUNDED_D8` (R84): 215 data bytes, then the follow position. -/
def execLbD8 (s : State) : Host.Outcome State Fault Refusal := lengthByteRow 0xD8 s

/-- `LB.BOUNDED_D9` (R84): 216 data bytes, then the follow position. -/
def execLbD9 (s : State) : Host.Outcome State Fault Refusal := lengthByteRow 0xD9 s

/-- `LB.BOUNDED_DA` (R84): 217 data bytes, then the follow position. -/
def execLbDA (s : State) : Host.Outcome State Fault Refusal := lengthByteRow 0xDA s

/-- `LB.BOUNDED_DB` (R84): 218 data bytes, then the follow position. -/
def execLbDB (s : State) : Host.Outcome State Fault Refusal := lengthByteRow 0xDB s

/-- `LB.BOUNDED_DC` (R84): 219 data bytes, then the follow position. -/
def execLbDC (s : State) : Host.Outcome State Fault Refusal := lengthByteRow 0xDC s

/-- `LB.BOUNDED_DD` (R84): 220 data bytes, then the follow position. -/
def execLbDD (s : State) : Host.Outcome State Fault Refusal := lengthByteRow 0xDD s

/-- `LB.BOUNDED_DE` (R84): 221 data bytes, then the follow position. -/
def execLbDE (s : State) : Host.Outcome State Fault Refusal := lengthByteRow 0xDE s

/-- `LB.BOUNDED_DF` (R84): 222 data bytes, then the follow position. -/
def execLbDF (s : State) : Host.Outcome State Fault Refusal := lengthByteRow 0xDF s

/-- `LB.BOUNDED_E0` (R84): 223 data bytes, then the follow position. -/
def execLbE0 (s : State) : Host.Outcome State Fault Refusal := lengthByteRow 0xE0 s

/-- `LB.BOUNDED_E1` (R84): 224 data bytes, then the follow position. -/
def execLbE1 (s : State) : Host.Outcome State Fault Refusal := lengthByteRow 0xE1 s

/-- `LB.BOUNDED_E2` (R84): 225 data bytes, then the follow position. -/
def execLbE2 (s : State) : Host.Outcome State Fault Refusal := lengthByteRow 0xE2 s

/-- `LB.BOUNDED_E3` (R84): 226 data bytes, then the follow position. -/
def execLbE3 (s : State) : Host.Outcome State Fault Refusal := lengthByteRow 0xE3 s

/-- `LB.BOUNDED_E4` (R84): 227 data bytes, then the follow position. -/
def execLbE4 (s : State) : Host.Outcome State Fault Refusal := lengthByteRow 0xE4 s

/-- `LB.BOUNDED_E5` (R84): 228 data bytes, then the follow position. -/
def execLbE5 (s : State) : Host.Outcome State Fault Refusal := lengthByteRow 0xE5 s

/-- `LB.BOUNDED_E6` (R84): 229 data bytes, then the follow position. -/
def execLbE6 (s : State) : Host.Outcome State Fault Refusal := lengthByteRow 0xE6 s

/-- `LB.BOUNDED_E7` (R84): 230 data bytes, then the follow position. -/
def execLbE7 (s : State) : Host.Outcome State Fault Refusal := lengthByteRow 0xE7 s

/-- `LB.BOUNDED_E8` (R84): 231 data bytes, then the follow position. -/
def execLbE8 (s : State) : Host.Outcome State Fault Refusal := lengthByteRow 0xE8 s

/-- `LB.BOUNDED_E9` (R84): 232 data bytes, then the follow position. -/
def execLbE9 (s : State) : Host.Outcome State Fault Refusal := lengthByteRow 0xE9 s

/-- `LB.BOUNDED_EA` (R84): 233 data bytes, then the follow position. -/
def execLbEA (s : State) : Host.Outcome State Fault Refusal := lengthByteRow 0xEA s

/-- `LB.BOUNDED_EB` (R84): 234 data bytes, then the follow position. -/
def execLbEB (s : State) : Host.Outcome State Fault Refusal := lengthByteRow 0xEB s

/-- `LB.BOUNDED_EC` (R84): 235 data bytes, then the follow position. -/
def execLbEC (s : State) : Host.Outcome State Fault Refusal := lengthByteRow 0xEC s

/-- `LB.BOUNDED_ED` (R84): 236 data bytes, then the follow position. -/
def execLbED (s : State) : Host.Outcome State Fault Refusal := lengthByteRow 0xED s

/-- `LB.BOUNDED_EE` (R84): 237 data bytes, then the follow position. -/
def execLbEE (s : State) : Host.Outcome State Fault Refusal := lengthByteRow 0xEE s

/-- `LB.BOUNDED_EF` (R84): 238 data bytes, then the follow position. -/
def execLbEF (s : State) : Host.Outcome State Fault Refusal := lengthByteRow 0xEF s

/-- `LB.BOUNDED_F0` (R84): 239 data bytes, then the follow position. -/
def execLbF0 (s : State) : Host.Outcome State Fault Refusal := lengthByteRow 0xF0 s

/-- `LB.BOUNDED_F1` (R84): 240 data bytes, then the follow position. -/
def execLbF1 (s : State) : Host.Outcome State Fault Refusal := lengthByteRow 0xF1 s

/-- `LB.BOUNDED_F2` (R84): 241 data bytes, then the follow position. -/
def execLbF2 (s : State) : Host.Outcome State Fault Refusal := lengthByteRow 0xF2 s

/-- `LB.BOUNDED_F3` (R84): 242 data bytes, then the follow position. -/
def execLbF3 (s : State) : Host.Outcome State Fault Refusal := lengthByteRow 0xF3 s

/-- `LB.BOUNDED_F4` (R84): 243 data bytes, then the follow position. -/
def execLbF4 (s : State) : Host.Outcome State Fault Refusal := lengthByteRow 0xF4 s

/-- `LB.BOUNDED_F5` (R84): 244 data bytes, then the follow position. -/
def execLbF5 (s : State) : Host.Outcome State Fault Refusal := lengthByteRow 0xF5 s

/-- `LB.BOUNDED_F6` (R84): 245 data bytes, then the follow position. -/
def execLbF6 (s : State) : Host.Outcome State Fault Refusal := lengthByteRow 0xF6 s

/-- `LB.BOUNDED_F7` (R84): 246 data bytes, then the follow position. -/
def execLbF7 (s : State) : Host.Outcome State Fault Refusal := lengthByteRow 0xF7 s

/-- `LB.BOUNDED_F8` (R84): 247 data bytes, then the follow position. -/
def execLbF8 (s : State) : Host.Outcome State Fault Refusal := lengthByteRow 0xF8 s

/-- `LB.BOUNDED_F9` (R84): 248 data bytes, then the follow position. -/
def execLbF9 (s : State) : Host.Outcome State Fault Refusal := lengthByteRow 0xF9 s

/-- `LB.BOUNDED_FA` (R84): 249 data bytes, then the follow position. -/
def execLbFA (s : State) : Host.Outcome State Fault Refusal := lengthByteRow 0xFA s

/-- `LB.BOUNDED_FB` (R84): 250 data bytes, then the follow position. -/
def execLbFB (s : State) : Host.Outcome State Fault Refusal := lengthByteRow 0xFB s

/-- `LB.BOUNDED_FC` (R84): 251 data bytes, then the follow position. -/
def execLbFC (s : State) : Host.Outcome State Fault Refusal := lengthByteRow 0xFC s

/-- `LB.BOUNDED_FD` (R84): 252 data bytes, then the follow position. -/
def execLbFD (s : State) : Host.Outcome State Fault Refusal := lengthByteRow 0xFD s

/-- `LB.BOUNDED_FE` (R84): 253 data bytes, then the follow position. -/
def execLbFE (s : State) : Host.Outcome State Fault Refusal := lengthByteRow 0xFE s

/-- `LB.CONT` (R84, R166): 254 data bytes, then a length-byte position. -/
def execLbCont (s : State) : Host.Outcome State Fault Refusal := lengthByteRow 0xFF s

end Sys2Proof.Machine
end

