-- ==== Sys2Proof/Machine/Reserved.lean ====
section
/-! DEFINITION. Family: the reserved command codes (30_encoding.md R93): "a model has no transition for them (refuse)". -/

namespace Sys2Proof.Machine

/-- Code 110 selects no operation (R93). -/
def execReserved110 (_s : State) : Host.Outcome State Fault Refusal := .refused .reservedCommand

/-- Code 111 selects no operation (R93). -/
def execReserved111 (_s : State) : Host.Outcome State Fault Refusal := .refused .reservedCommand

end Sys2Proof.Machine
end

