-- ==== Sys2Proof/Machine/StatusCodes.lean ====
section
/-! DEFINITION. Family: the status codes (60_exceptions.md R203): how a decode posts its end. -/

namespace Sys2Proof.Machine

/-- `STATUS.OK`: `STATUS <- 0`, `RLEN <- v` (R203). -/
def execStatusOk (s : State) : Host.Outcome State Fault Refusal := statusRow .ok s

/-- `STATUS.BufferTooSmall` (R201, R203). -/
def execStatusBufferTooSmall (s : State) : Host.Outcome State Fault Refusal := statusRow .bufferTooSmall s

/-- `STATUS.TruncatedFrame` (R202, R203). -/
def execStatusTruncatedFrame (s : State) : Host.Outcome State Fault Refusal := statusRow .truncatedFrame s

/-- `STATUS.InvalidLengthByte` (R204, R203). -/
def execStatusInvalidLengthByte (s : State) : Host.Outcome State Fault Refusal := statusRow .invalidLengthByte s

end Sys2Proof.Machine
end

