-- ==== Sys2Proof/Machine/Dispatch.lean ====
section
/-! DEFINITION. What each row of the opcode table does: one arm per constructor. -/

namespace Sys2Proof.Machine

def exec (i : Instr) (s : State) : Host.Outcome State Fault Refusal :=
  match i with
  | .len => Sys2Proof.Machine.execLen s
  | .enc => Sys2Proof.Machine.execEnc s
  | .dec => Sys2Proof.Machine.execDec s
  | .deci => Sys2Proof.Machine.execDeci s
  | .encsStart => Sys2Proof.Machine.execEncsStart s
  | .encsNext => Sys2Proof.Machine.execEncsNext s
  | .reserved110 => Sys2Proof.Machine.execReserved110 s
  | .reserved111 => Sys2Proof.Machine.execReserved111 s
  | .lbInvalid => Sys2Proof.Machine.execLbInvalid s
  | .lb01 => Sys2Proof.Machine.execLb01 s
  | .lb02 => Sys2Proof.Machine.execLb02 s
  | .lb03 => Sys2Proof.Machine.execLb03 s
  | .lb04 => Sys2Proof.Machine.execLb04 s
  | .lb05 => Sys2Proof.Machine.execLb05 s
  | .lb06 => Sys2Proof.Machine.execLb06 s
  | .lb07 => Sys2Proof.Machine.execLb07 s
  | .lb08 => Sys2Proof.Machine.execLb08 s
  | .lb09 => Sys2Proof.Machine.execLb09 s
  | .lb0A => Sys2Proof.Machine.execLb0A s
  | .lb0B => Sys2Proof.Machine.execLb0B s
  | .lb0C => Sys2Proof.Machine.execLb0C s
  | .lb0D => Sys2Proof.Machine.execLb0D s
  | .lb0E => Sys2Proof.Machine.execLb0E s
  | .lb0F => Sys2Proof.Machine.execLb0F s
  | .lb10 => Sys2Proof.Machine.execLb10 s
  | .lb11 => Sys2Proof.Machine.execLb11 s
  | .lb12 => Sys2Proof.Machine.execLb12 s
  | .lb13 => Sys2Proof.Machine.execLb13 s
  | .lb14 => Sys2Proof.Machine.execLb14 s
  | .lb15 => Sys2Proof.Machine.execLb15 s
  | .lb16 => Sys2Proof.Machine.execLb16 s
  | .lb17 => Sys2Proof.Machine.execLb17 s
  | .lb18 => Sys2Proof.Machine.execLb18 s
  | .lb19 => Sys2Proof.Machine.execLb19 s
  | .lb1A => Sys2Proof.Machine.execLb1A s
  | .lb1B => Sys2Proof.Machine.execLb1B s
  | .lb1C => Sys2Proof.Machine.execLb1C s
  | .lb1D => Sys2Proof.Machine.execLb1D s
  | .lb1E => Sys2Proof.Machine.execLb1E s
  | .lb1F => Sys2Proof.Machine.execLb1F s
  | .lb20 => Sys2Proof.Machine.execLb20 s
  | .lb21 => Sys2Proof.Machine.execLb21 s
  | .lb22 => Sys2Proof.Machine.execLb22 s
  | .lb23 => Sys2Proof.Machine.execLb23 s
  | .lb24 => Sys2Proof.Machine.execLb24 s
  | .lb25 => Sys2Proof.Machine.execLb25 s
  | .lb26 => Sys2Proof.Machine.execLb26 s
  | .lb27 => Sys2Proof.Machine.execLb27 s
  | .lb28 => Sys2Proof.Machine.execLb28 s
  | .lb29 => Sys2Proof.Machine.execLb29 s
  | .lb2A => Sys2Proof.Machine.execLb2A s
  | .lb2B => Sys2Proof.Machine.execLb2B s
  | .lb2C => Sys2Proof.Machine.execLb2C s
  | .lb2D => Sys2Proof.Machine.execLb2D s
  | .lb2E => Sys2Proof.Machine.execLb2E s
  | .lb2F => Sys2Proof.Machine.execLb2F s
  | .lb30 => Sys2Proof.Machine.execLb30 s
  | .lb31 => Sys2Proof.Machine.execLb31 s
  | .lb32 => Sys2Proof.Machine.execLb32 s
  | .lb33 => Sys2Proof.Machine.execLb33 s
  | .lb34 => Sys2Proof.Machine.execLb34 s
  | .lb35 => Sys2Proof.Machine.execLb35 s
  | .lb36 => Sys2Proof.Machine.execLb36 s
  | .lb37 => Sys2Proof.Machine.execLb37 s
  | .lb38 => Sys2Proof.Machine.execLb38 s
  | .lb39 => Sys2Proof.Machine.execLb39 s
  | .lb3A => Sys2Proof.Machine.execLb3A s
  | .lb3B => Sys2Proof.Machine.execLb3B s
  | .lb3C => Sys2Proof.Machine.execLb3C s
  | .lb3D => Sys2Proof.Machine.execLb3D s
  | .lb3E => Sys2Proof.Machine.execLb3E s
  | .lb3F => Sys2Proof.Machine.execLb3F s
  | .lb40 => Sys2Proof.Machine.execLb40 s
  | .lb41 => Sys2Proof.Machine.execLb41 s
  | .lb42 => Sys2Proof.Machine.execLb42 s
  | .lb43 => Sys2Proof.Machine.execLb43 s
  | .lb44 => Sys2Proof.Machine.execLb44 s
  | .lb45 => Sys2Proof.Machine.execLb45 s
  | .lb46 => Sys2Proof.Machine.execLb46 s
  | .lb47 => Sys2Proof.Machine.execLb47 s
  | .lb48 => Sys2Proof.Machine.execLb48 s
  | .lb49 => Sys2Proof.Machine.execLb49 s
  | .lb4A => Sys2Proof.Machine.execLb4A s
  | .lb4B => Sys2Proof.Machine.execLb4B s
  | .lb4C => Sys2Proof.Machine.execLb4C s
  | .lb4D => Sys2Proof.Machine.execLb4D s
  | .lb4E => Sys2Proof.Machine.execLb4E s
  | .lb4F => Sys2Proof.Machine.execLb4F s
  | .lb50 => Sys2Proof.Machine.execLb50 s
  | .lb51 => Sys2Proof.Machine.execLb51 s
  | .lb52 => Sys2Proof.Machine.execLb52 s
  | .lb53 => Sys2Proof.Machine.execLb53 s
  | .lb54 => Sys2Proof.Machine.execLb54 s
  | .lb55 => Sys2Proof.Machine.execLb55 s
  | .lb56 => Sys2Proof.Machine.execLb56 s
  | .lb57 => Sys2Proof.Machine.execLb57 s
  | .lb58 => Sys2Proof.Machine.execLb58 s
  | .lb59 => Sys2Proof.Machine.execLb59 s
  | .lb5A => Sys2Proof.Machine.execLb5A s
  | .lb5B => Sys2Proof.Machine.execLb5B s
  | .lb5C => Sys2Proof.Machine.execLb5C s
  | .lb5D => Sys2Proof.Machine.execLb5D s
  | .lb5E => Sys2Proof.Machine.execLb5E s
  | .lb5F => Sys2Proof.Machine.execLb5F s
  | .lb60 => Sys2Proof.Machine.execLb60 s
  | .lb61 => Sys2Proof.Machine.execLb61 s
  | .lb62 => Sys2Proof.Machine.execLb62 s
  | .lb63 => Sys2Proof.Machine.execLb63 s
  | .lb64 => Sys2Proof.Machine.execLb64 s
  | .lb65 => Sys2Proof.Machine.execLb65 s
  | .lb66 => Sys2Proof.Machine.execLb66 s
  | .lb67 => Sys2Proof.Machine.execLb67 s
  | .lb68 => Sys2Proof.Machine.execLb68 s
  | .lb69 => Sys2Proof.Machine.execLb69 s
  | .lb6A => Sys2Proof.Machine.execLb6A s
  | .lb6B => Sys2Proof.Machine.execLb6B s
  | .lb6C => Sys2Proof.Machine.execLb6C s
  | .lb6D => Sys2Proof.Machine.execLb6D s
  | .lb6E => Sys2Proof.Machine.execLb6E s
  | .lb6F => Sys2Proof.Machine.execLb6F s
  | .lb70 => Sys2Proof.Machine.execLb70 s
  | .lb71 => Sys2Proof.Machine.execLb71 s
  | .lb72 => Sys2Proof.Machine.execLb72 s
  | .lb73 => Sys2Proof.Machine.execLb73 s
  | .lb74 => Sys2Proof.Machine.execLb74 s
  | .lb75 => Sys2Proof.Machine.execLb75 s
  | .lb76 => Sys2Proof.Machine.execLb76 s
  | .lb77 => Sys2Proof.Machine.execLb77 s
  | .lb78 => Sys2Proof.Machine.execLb78 s
  | .lb79 => Sys2Proof.Machine.execLb79 s
  | .lb7A => Sys2Proof.Machine.execLb7A s
  | .lb7B => Sys2Proof.Machine.execLb7B s
  | .lb7C => Sys2Proof.Machine.execLb7C s
  | .lb7D => Sys2Proof.Machine.execLb7D s
  | .lb7E => Sys2Proof.Machine.execLb7E s
  | .lb7F => Sys2Proof.Machine.execLb7F s
  | .lb80 => Sys2Proof.Machine.execLb80 s
  | .lb81 => Sys2Proof.Machine.execLb81 s
  | .lb82 => Sys2Proof.Machine.execLb82 s
  | .lb83 => Sys2Proof.Machine.execLb83 s
  | .lb84 => Sys2Proof.Machine.execLb84 s
  | .lb85 => Sys2Proof.Machine.execLb85 s
  | .lb86 => Sys2Proof.Machine.execLb86 s
  | .lb87 => Sys2Proof.Machine.execLb87 s
  | .lb88 => Sys2Proof.Machine.execLb88 s
  | .lb89 => Sys2Proof.Machine.execLb89 s
  | .lb8A => Sys2Proof.Machine.execLb8A s
  | .lb8B => Sys2Proof.Machine.execLb8B s
  | .lb8C => Sys2Proof.Machine.execLb8C s
  | .lb8D => Sys2Proof.Machine.execLb8D s
  | .lb8E => Sys2Proof.Machine.execLb8E s
  | .lb8F => Sys2Proof.Machine.execLb8F s
  | .lb90 => Sys2Proof.Machine.execLb90 s
  | .lb91 => Sys2Proof.Machine.execLb91 s
  | .lb92 => Sys2Proof.Machine.execLb92 s
  | .lb93 => Sys2Proof.Machine.execLb93 s
  | .lb94 => Sys2Proof.Machine.execLb94 s
  | .lb95 => Sys2Proof.Machine.execLb95 s
  | .lb96 => Sys2Proof.Machine.execLb96 s
  | .lb97 => Sys2Proof.Machine.execLb97 s
  | .lb98 => Sys2Proof.Machine.execLb98 s
  | .lb99 => Sys2Proof.Machine.execLb99 s
  | .lb9A => Sys2Proof.Machine.execLb9A s
  | .lb9B => Sys2Proof.Machine.execLb9B s
  | .lb9C => Sys2Proof.Machine.execLb9C s
  | .lb9D => Sys2Proof.Machine.execLb9D s
  | .lb9E => Sys2Proof.Machine.execLb9E s
  | .lb9F => Sys2Proof.Machine.execLb9F s
  | .lbA0 => Sys2Proof.Machine.execLbA0 s
  | .lbA1 => Sys2Proof.Machine.execLbA1 s
  | .lbA2 => Sys2Proof.Machine.execLbA2 s
  | .lbA3 => Sys2Proof.Machine.execLbA3 s
  | .lbA4 => Sys2Proof.Machine.execLbA4 s
  | .lbA5 => Sys2Proof.Machine.execLbA5 s
  | .lbA6 => Sys2Proof.Machine.execLbA6 s
  | .lbA7 => Sys2Proof.Machine.execLbA7 s
  | .lbA8 => Sys2Proof.Machine.execLbA8 s
  | .lbA9 => Sys2Proof.Machine.execLbA9 s
  | .lbAA => Sys2Proof.Machine.execLbAA s
  | .lbAB => Sys2Proof.Machine.execLbAB s
  | .lbAC => Sys2Proof.Machine.execLbAC s
  | .lbAD => Sys2Proof.Machine.execLbAD s
  | .lbAE => Sys2Proof.Machine.execLbAE s
  | .lbAF => Sys2Proof.Machine.execLbAF s
  | .lbB0 => Sys2Proof.Machine.execLbB0 s
  | .lbB1 => Sys2Proof.Machine.execLbB1 s
  | .lbB2 => Sys2Proof.Machine.execLbB2 s
  | .lbB3 => Sys2Proof.Machine.execLbB3 s
  | .lbB4 => Sys2Proof.Machine.execLbB4 s
  | .lbB5 => Sys2Proof.Machine.execLbB5 s
  | .lbB6 => Sys2Proof.Machine.execLbB6 s
  | .lbB7 => Sys2Proof.Machine.execLbB7 s
  | .lbB8 => Sys2Proof.Machine.execLbB8 s
  | .lbB9 => Sys2Proof.Machine.execLbB9 s
  | .lbBA => Sys2Proof.Machine.execLbBA s
  | .lbBB => Sys2Proof.Machine.execLbBB s
  | .lbBC => Sys2Proof.Machine.execLbBC s
  | .lbBD => Sys2Proof.Machine.execLbBD s
  | .lbBE => Sys2Proof.Machine.execLbBE s
  | .lbBF => Sys2Proof.Machine.execLbBF s
  | .lbC0 => Sys2Proof.Machine.execLbC0 s
  | .lbC1 => Sys2Proof.Machine.execLbC1 s
  | .lbC2 => Sys2Proof.Machine.execLbC2 s
  | .lbC3 => Sys2Proof.Machine.execLbC3 s
  | .lbC4 => Sys2Proof.Machine.execLbC4 s
  | .lbC5 => Sys2Proof.Machine.execLbC5 s
  | .lbC6 => Sys2Proof.Machine.execLbC6 s
  | .lbC7 => Sys2Proof.Machine.execLbC7 s
  | .lbC8 => Sys2Proof.Machine.execLbC8 s
  | .lbC9 => Sys2Proof.Machine.execLbC9 s
  | .lbCA => Sys2Proof.Machine.execLbCA s
  | .lbCB => Sys2Proof.Machine.execLbCB s
  | .lbCC => Sys2Proof.Machine.execLbCC s
  | .lbCD => Sys2Proof.Machine.execLbCD s
  | .lbCE => Sys2Proof.Machine.execLbCE s
  | .lbCF => Sys2Proof.Machine.execLbCF s
  | .lbD0 => Sys2Proof.Machine.execLbD0 s
  | .lbD1 => Sys2Proof.Machine.execLbD1 s
  | .lbD2 => Sys2Proof.Machine.execLbD2 s
  | .lbD3 => Sys2Proof.Machine.execLbD3 s
  | .lbD4 => Sys2Proof.Machine.execLbD4 s
  | .lbD5 => Sys2Proof.Machine.execLbD5 s
  | .lbD6 => Sys2Proof.Machine.execLbD6 s
  | .lbD7 => Sys2Proof.Machine.execLbD7 s
  | .lbD8 => Sys2Proof.Machine.execLbD8 s
  | .lbD9 => Sys2Proof.Machine.execLbD9 s
  | .lbDA => Sys2Proof.Machine.execLbDA s
  | .lbDB => Sys2Proof.Machine.execLbDB s
  | .lbDC => Sys2Proof.Machine.execLbDC s
  | .lbDD => Sys2Proof.Machine.execLbDD s
  | .lbDE => Sys2Proof.Machine.execLbDE s
  | .lbDF => Sys2Proof.Machine.execLbDF s
  | .lbE0 => Sys2Proof.Machine.execLbE0 s
  | .lbE1 => Sys2Proof.Machine.execLbE1 s
  | .lbE2 => Sys2Proof.Machine.execLbE2 s
  | .lbE3 => Sys2Proof.Machine.execLbE3 s
  | .lbE4 => Sys2Proof.Machine.execLbE4 s
  | .lbE5 => Sys2Proof.Machine.execLbE5 s
  | .lbE6 => Sys2Proof.Machine.execLbE6 s
  | .lbE7 => Sys2Proof.Machine.execLbE7 s
  | .lbE8 => Sys2Proof.Machine.execLbE8 s
  | .lbE9 => Sys2Proof.Machine.execLbE9 s
  | .lbEA => Sys2Proof.Machine.execLbEA s
  | .lbEB => Sys2Proof.Machine.execLbEB s
  | .lbEC => Sys2Proof.Machine.execLbEC s
  | .lbED => Sys2Proof.Machine.execLbED s
  | .lbEE => Sys2Proof.Machine.execLbEE s
  | .lbEF => Sys2Proof.Machine.execLbEF s
  | .lbF0 => Sys2Proof.Machine.execLbF0 s
  | .lbF1 => Sys2Proof.Machine.execLbF1 s
  | .lbF2 => Sys2Proof.Machine.execLbF2 s
  | .lbF3 => Sys2Proof.Machine.execLbF3 s
  | .lbF4 => Sys2Proof.Machine.execLbF4 s
  | .lbF5 => Sys2Proof.Machine.execLbF5 s
  | .lbF6 => Sys2Proof.Machine.execLbF6 s
  | .lbF7 => Sys2Proof.Machine.execLbF7 s
  | .lbF8 => Sys2Proof.Machine.execLbF8 s
  | .lbF9 => Sys2Proof.Machine.execLbF9 s
  | .lbFA => Sys2Proof.Machine.execLbFA s
  | .lbFB => Sys2Proof.Machine.execLbFB s
  | .lbFC => Sys2Proof.Machine.execLbFC s
  | .lbFD => Sys2Proof.Machine.execLbFD s
  | .lbFE => Sys2Proof.Machine.execLbFE s
  | .lbCont => Sys2Proof.Machine.execLbCont s
  | .fpTerm => Sys2Proof.Machine.execFpTerm s
  | .fpImpliedZero b => Sys2Proof.Machine.execFpImpliedZero b s
  | .statusOk => Sys2Proof.Machine.execStatusOk s
  | .statusBufferTooSmall => Sys2Proof.Machine.execStatusBufferTooSmall s
  | .statusTruncatedFrame => Sys2Proof.Machine.execStatusTruncatedFrame s
  | .statusInvalidLengthByte => Sys2Proof.Machine.execStatusInvalidLengthByte s

end Sys2Proof.Machine
end

