-- ==== Sys2Proof/Machine/Fetch.lean ====
section
/-! DEFINITION. Where the next word comes from. The block has no program counter (10_state.md R27): a command is the value
the host writes to `CMD`; inside a decode the word is the byte at the read cursor, or the code the decode has ended
with. -/

namespace Sys2Proof.Machine

/-- The command a value written to `CMD` selects: a 3-bit code (R91). -/
def fetchCommand (v : Nat) : Option Instr :=
  if v < 8 then some (decodeCommand (BitVec.ofNat 3 v)) else none

/-- The row the engine meets inside a decode; none when the input has ended (R155). -/
def fetchWire (j : Job) (s : State) : Option Instr :=
  match j.stage with
  | .lengthByte => if j.r < j.len then some (decodeLengthByte (j.byteAt s)) else none
  | .follow => if j.r < j.len then some (decodeFollow (j.byteAt s)) else none
  | .ended code => some (decodeStatus code.bits)

/-- One step of the engine inside a decode: the row it meets, or TruncatedFrame where the input has ended (R152). -/
def engineStep (j : Job) (s : State) : Host.Outcome State Fault Refusal :=
  match fetchWire j s with
  | some i => exec i s
  | none => .next (s.runOut j)

end Sys2Proof.Machine
end

