-- ==== Sys2Proof/Machine/HostPort.lean ====
section
/-! DEFINITION. What the host does at the block's interface (10_state.md R36; 20_memory.md R33, R56; 30_encoding.md R91,
R96; 70_reset_and_hazards.md R232). -/

namespace Sys2Proof.Machine

/-- The host's write of an operand register, a value of `W` bits (R11, R21, R22); every other register but `CMD` is not
for the host to write (R36). -/
def hostWrite (reg : HostReg) (v : Nat) (s : State) : Host.Outcome State Fault Refusal :=
  match reg with
  | .argLen =>
    if v < 2 ^ s.cfg.width then .next { s with argLen := v, specified := { s.specified with argLen := true } }
    else .refused .valueTooWide
  | .dstCap =>
    if v < 2 ^ s.cfg.width then .next { s with dstCap := v, specified := { s.specified with dstCap := true } }
    else .refused .valueTooWide
  | .cmd =>
    match fetchCommand v with
    | some i => exec i s
    | none => .refused .valueTooWide
  | .rlen | .sdata | .status | .svalid | .iter => .refused .registerNotWritable

/-- The host's read of a register (R36): no side effect. A register marked unspecified reads as what it holds (R35; DESIGN
CHOICE, log 13). `CMD` (R25) and `ITER` (R29) are not for the host to read. -/
def hostRead (reg : HostReg) (s : State) : Host.Outcome State Fault Refusal :=
  match reg with
  | .argLen => .next { s with hostData := s.argLen }
  | .dstCap => .next { s with hostData := s.dstCap }
  | .rlen => .next { s with hostData := s.rlen }
  | .sdata => .next { s with hostData := s.sdata.toNat }
  | .status => .next { s with hostData := s.status.toNat }
  | .svalid => .next { s with hostData := s.svalid.toNat }
  | .cmd | .iter => .refused .registerNotReadable

/-- Issue a command and, if it is a decode, stop before its first step (R31; log 1). -/
def issueByBlock (v : Nat) (s : State) : Host.Outcome State Fault Refusal :=
  match fetchCommand v with
  | some .dec => guarded s.decRefusal (s.startDecode .dec)
  | some .deci => guarded s.deciRefusal (s.startDecode .deci)
  | some i => exec i s
  | none => .refused .valueTooWide

/-- Issue a command and reset the instance before the command has completed: what it could have written is unspecified,
and the registers are as after any reset (R34, R232, U13). -/
def resetDuring (v : Nat) (s : State) : Host.Outcome State Fault Refusal :=
  match fetchCommand v with
  | some .len => guarded s.lenRefusal s.resetRegisters
  | some .enc => guarded s.encRefusal (s.abandon .dst s.dstCap)
  | some .dec => guarded s.decRefusal (s.abandon .dst s.dstCap)
  | some .deci => guarded s.deciRefusal (s.abandon .buf s.argLen)
  | some .encsStart => guarded s.encsStartRefusal s.resetRegisters
  | some .encsNext => guarded s.encsNextRefusal s.resetRegisters
  | some _ => .refused .reservedCommand
  | none => .refused .valueTooWide

/-- One action of the host. It may move a buffer at any time between commands, `SRC` also while a lazy sequence is open:
the sequence then goes on at the new place (DESIGN CHOICE, log 20). Its own access to a byte in a device window, of which
R54 says nothing, is an access to ordinary memory (DESIGN CHOICE, log 21). -/
def hostStep (a : HostAction) (s : State) : Host.Outcome State Fault Refusal :=
  match a with
  | .writeReg reg v => hostWrite reg v s
  | .readReg reg => hostRead reg s
  | .poke b i v => .next { s with mem := s.mem.write (s.addr b i) v }
  | .peek b i => .next { s with hostData := (s.mem.read (s.addr b i)).toNat }
  | .place b base => .next { s with place := s.place.move b base }
  | .issueByBlock v => issueByBlock v s
  | .reset => .next s.applyReset
  | .resetDuring v => resetDuring v s

/-- The host's next action is a reset: the one action that does not wait for a command in progress (R232, R245). -/
def State.resetPending (s : State) : Bool :=
  match s.host with
  | .reset :: _ => true
  | _ => false

/-- The host takes its next action, if it has one; else the block waits (R34). -/
def hostTurn (s : State) : Host.Outcome State Fault Refusal :=
  match s.host with
  | [] => .next s
  | a :: rest => hostStep a { s with host := rest }

/-- The word of a wire row, with zero bytes after it, as the whole input of a decode that stands at its first byte. -/
def State.withWire (s : State) (bytes : List Byte) : State :=
  { s with
    mem := s.mem.store (s.addr .src 0) (bytes ++ List.replicate (256 - bytes.length) 0x00)
    job := some ⟨.dec, 256, 255, 0, 0, .lengthByte⟩
    host := s.host.dropWhile (· == .reset) }

/-- A decode that has ended with the code a status word stands for. -/
def State.withStatusWord (s : State) (w : Nat) : State :=
  let code : StatusCode :=
    match w % 4 with
    | 0 => .ok
    | 1 => .bufferTooSmall
    | 2 => .truncatedFrame
    | _ => .invalidLengthByte
  { s with
    job := some ⟨.dec, 0, 0, 0, 0, .ended code⟩
    host := s.host.dropWhile (· == .reset) }

/-- The value about to be written to `CMD`, with the operand registers marked as written: the program's writes of them
that come before it (R96, R234) are taken to have put there what they hold (log 15). -/
def State.withCommand (s : State) (w : Nat) : State :=
  { s with
    job := none
    host := .writeReg .cmd (w % 256) :: s.host
    specified := { s.specified with argLen := true, dstCap := true } }

end Sys2Proof.Machine
end

