-- ==== Sys2Proof/Machine/Step.lean ====
section
/-! DEFINITION. One step of the machine. A reset the host has pending comes first (R232); then a decode in progress (R10:
the host waits for a command to complete); then the host's next action; an idle block whose host does nothing waits. -/

namespace Sys2Proof.Machine

/-- One step. -/
def step (s : State) : Host.Outcome State Fault Refusal :=
  if s.resetPending then hostTurn s
  else
    match s.job with
    | some j => engineStep j s
    | none => hostTurn s

/-- The state in which the very next step runs the word: a command as the host's next write of `CMD`, a length byte as
the first byte of a decode's input, a status as the end of a decode (log 15). -/
def State.withFetchWord (s : State) (nbits w : Nat) : State :=
  match tablePosition nbits w with
  | .command => s.withCommand w
  | .lengthByte | .follow => s.withWire (wordBytes w (max 1 ((nbits + 7) / 8)))
  | .status => s.withStatusWord w

end Sys2Proof.Machine
end

