-- ==== Sys2Proof/Machine/Reference.lean ====
section
/-! DEFINITION. The pure functions on byte sequences that the spec defines the transform with (00_scope.md R14). They are
not operations of the block; the statements hold the commands against them. -/

namespace Sys2Proof.Machine

/-- The length of the run at the start of a sequence (R120). -/
def Ref.runLen (m : List Byte) : Nat := min 254 (m.takeWhile (· != 0)).length

/-- The kind of the run at the start of a sequence (R120): 254 bytes win over the end and over a zero. -/
def Ref.runKind (m : List Byte) : RunKind :=
  if Ref.runLen m = 254 then .cont else if Ref.runLen m = m.length then .fin else .zero

/-- `run(m, p)` (R120). -/
def Ref.run (m : List Byte) (p : Nat) : Nat × RunKind := (Ref.runLen (m.drop p), Ref.runKind (m.drop p))

/-- The blocks that encode a sequence, by recursion on its length (R121). -/
def Ref.blocksOf : Nat → List Byte → List Byte
  | 0, _ => []
  | fuel + 1, m =>
    let l := Ref.runLen m
    match Ref.runKind m with
    | .cont => 0xFF :: (m.take 254 ++ Ref.blocksOf fuel (m.drop 254))
    | .zero => BitVec.ofNat 8 (l + 1) :: (m.take l ++ Ref.blocksOf fuel (m.drop (l + 1)))
    | .fin => BitVec.ofNat 8 (l + 1) :: m.take l

/-- `blocks(m, p)` (R121). -/
def Ref.blocks (m : List Byte) (p : Nat) : List Byte := Ref.blocksOf ((m.drop p).length + 1) (m.drop p)

/-- `enc(m)` (R122). -/
def Ref.enc (m : List Byte) : List Byte := Ref.blocks m 0 ++ [0x00]

/-- The number of continuation steps in the blocks of a sequence. -/
def Ref.contsOf : Nat → List Byte → Nat
  | 0, _ => 0
  | fuel + 1, m =>
    match Ref.runKind m with
    | .cont => Ref.contsOf fuel (m.drop 254) + 1
    | .zero => Ref.contsOf fuel (m.drop (Ref.runLen m + 1))
    | .fin => 0

/-- `conts(m)` (R123). -/
def Ref.conts (m : List Byte) : Nat := Ref.contsOf (m.length + 1) m

/-- `enc_bound(n)` (R183). -/
def Ref.encBound (n : Nat) : Nat := n + n / 254 + 2

/-- `go(r, out)` (R150) over what is left of the input: `out` is what has been recovered, `used` what has been
consumed. -/
def Ref.decGo : Nat → List Byte → List Byte → Nat → Except StatusCode (List Byte × Nat)
  | 0, _, _, _ => .error .truncatedFrame
  | _ + 1, [], _, _ => .error .truncatedFrame
  | fuel + 1, c :: rest, out, used =>
    if c = 0x00 then .error .invalidLengthByte
    else if rest.length < c.toNat - 1 then .error .truncatedFrame
    else
      let out' := out ++ rest.take (c.toNat - 1)
      let rest' := rest.drop (c.toNat - 1)
      if c = 0xFF then Ref.decGo fuel rest' out' (used + c.toNat)
      else
        match rest' with
        | [] => .error .truncatedFrame
        | b :: _ =>
          if b = 0x00 then .ok (out', used + c.toNat + 1)
          else Ref.decGo fuel rest' (out' ++ [0x00]) (used + c.toNat)

/-- `dec(f)` (R150). -/
def Ref.dec (f : List Byte) : Except StatusCode (List Byte × Nat) := Ref.decGo (f.length + 1) f [] 0

/-- What the byte-sequential decoder (R152) puts out when nothing limits its destination, and how it ends: on a failure
the output is what was decoded before it (R159). -/
def Ref.decSeq : Nat → List Byte → List Byte × StatusCode
  | 0, _ => ([], .truncatedFrame)
  | _ + 1, [] => ([], .truncatedFrame)
  | fuel + 1, c :: rest =>
    if c = 0x00 then ([], .invalidLengthByte)
    else if rest.length < c.toNat - 1 then (rest, .truncatedFrame)
    else
      let data := rest.take (c.toNat - 1)
      let rest' := rest.drop (c.toNat - 1)
      if c = 0xFF then
        let q := Ref.decSeq fuel rest'
        (data ++ q.1, q.2)
      else
        match rest' with
        | [] => (data, .truncatedFrame)
        | b :: _ =>
          if b = 0x00 then (data, .ok)
          else
            let q := Ref.decSeq fuel rest'
            (data ++ 0x00 :: q.1, q.2)

/-- The decoder's output and end on an input, without a limit on the destination. -/
def Ref.output (f : List Byte) : List Byte × StatusCode := Ref.decSeq (f.length + 1) f

/-- The blocks of a well-formed frame, `blocks` of the grammar of R86. -/
inductive Ref.IsBlocks : List Byte → Prop where
  /-- the last block is bounded -/
  | last (c : Byte) (d : List Byte) (hc : c.toNat = d.length + 1) (hb : c ≠ 0xFF) (hd : ∀ b ∈ d, b ≠ 0) :
      Ref.IsBlocks (c :: d)
  /-- a bounded block followed by more blocks: an implied zero -/
  | bounded (c : Byte) (d rest : List Byte) (hc : c.toNat = d.length + 1) (hb : c ≠ 0xFF) (hd : ∀ b ∈ d, b ≠ 0)
      (hr : Ref.IsBlocks rest) : Ref.IsBlocks (c :: (d ++ rest))
  /-- a continuation block is never last -/
  | cont (d rest : List Byte) (hl : d.length = 254) (hd : ∀ b ∈ d, b ≠ 0) (hr : Ref.IsBlocks rest) :
      Ref.IsBlocks (0xFF :: (d ++ rest))

/-- A well-formed frame (R86). -/
def Ref.IsFrame (f : List Byte) : Prop := ∃ bs, Ref.IsBlocks bs ∧ f = bs ++ [0x00]

end Sys2Proof.Machine
end

