-- ==== Sys2Proof/Safety.lean ====
section
/-! DEFINITION. What counts as a sound state and as a host that keeps its duties, in the terms the statements use. -/

namespace Sys2Proof.Machine

/-- The input of a command: the first `ARG_LEN` bytes of a buffer (R21). -/
def State.input (s : State) (b : Buffer) : List Byte := s.mem.slice (s.addr b 0) s.argLen

/-- The memory holds a sequence of bytes from an address on. -/
def Memory.Holds (m : Memory) (base : Nat) (bs : List Byte) : Prop := m.slice base bs.length = bs

/-- Every byte outside a range reads as before. -/
def Memory.SameOutside (m m' : Memory) (base n : Nat) : Prop :=
  ∀ a, (a < base ∨ base + n ≤ a) → m'.read a = m.read a

/-- What `ENC` and `DEC` ask of their operands: both registers written since reset (R234), `SRC` and `DST` without a byte
in common (R61), and neither in memory whose reads have side effects (R54). -/
def State.OperandsLegal (s : State) : Prop :=
  s.specified.argLen = true ∧ s.specified.dstCap = true ∧ s.buffersOverlap = false ∧ s.touchesDevice .src s.argLen = false ∧ s.touchesDevice .dst s.dstCap = false

/-- What `DECI` asks of its operands: `ARG_LEN` written since reset (R234), and `BUF` off memory whose reads have side
effects (R54). -/
def State.InPlaceLegal (s : State) : Prop := s.specified.argLen = true ∧ s.touchesDevice .buf s.argLen = false

/-- What `LEN` and `ENCS.START` ask of their operand: written since reset (R234), and a length of a raw message (R94). -/
def State.LengthLegal (s : State) : Prop := s.specified.argLen = true ∧ s.argLen ≤ s.cfg.nMax

/-- What every reset leaves (R34, R230, R232): the engine idle, `ITER` in phase DONE, no register specified, the parameters
and the placement as before; the host goes on with `rest`. -/
def State.ResetFrom (t s : State) (rest : List HostAction) : Prop :=
  t.job = none ∧ t.iter.phase = .done ∧ t.specified = Marks.unset ∧ t.cfg = s.cfg ∧ t.place = s.place ∧ t.host = rest

/-- What keeps a decode's writes off the input it has not read: source and destination apart, or the same buffer with
the write cursor not past the read cursor (R58, R61, R161). -/
def Job.Apart (src dst len cap r w : Nat) : Prop :=
  rangesMeet src len dst cap = false ∨ (src = dst ∧ w ≤ r)

/-- Every length register fits its `W` bits (R11, R21 to R23, R29), under R9's constraint on the parameters; a decode in
progress holds operands that fit and has written no more than its capacity (R51). -/
def State.lengthsFit (s : State) : Bool :=
  s.cfg.legal && decide (s.argLen < 2 ^ s.cfg.width) && decide (s.dstCap < 2 ^ s.cfg.width) &&
  decide (s.rlen < 2 ^ s.cfg.width) && decide (s.iter.n ≤ s.cfg.nMax) &&
  match s.job with
  | none => true
  | some j => decide (j.len < 2 ^ s.cfg.width) && decide (j.cap < 2 ^ s.cfg.width) && decide (j.w ≤ j.cap)

/-- The cursors of a decode in progress (R161, R168): `w <= r <= len`; at a follow position `w < r`, which makes the next
write land below the read cursor; at a successful end two bytes more have been consumed than produced. -/
def Job.ordered (j : Job) : Bool :=
  decide (j.w ≤ j.r) && decide (j.r ≤ j.len) &&
  match j.stage with
  | .lengthByte => true
  | .follow => decide (j.w < j.r)
  | .ended code => code != .ok || decide (j.w + 2 ≤ j.r)

/-- The cursors of the decode in progress, if there is one, are ordered. -/
def State.cursorsOrdered (s : State) : Bool :=
  match s.job with
  | none => true
  | some j => j.ordered

/-- The invariants of `ITER` in its own fields (R30), with what its tail says of the cursor where the block in progress
ends, without which no step would keep them. -/
def Iter.sound (it : Iter) : Bool :=
  decide (it.pos ≤ it.n) && decide (it.rem ≤ 254) &&
  match it.phase with
  | .done => true
  | .head => decide (it.rem = 0)
  | .data =>
    decide (1 ≤ it.rem) &&
    (match it.tail with
     | .cont => decide (it.pos + it.rem ≤ it.n)
     | .zero => decide (it.pos + it.rem < it.n)
     | .fin => decide (it.pos + it.rem = it.n))
  | .term => decide (it.rem = 0) && it.tail == .fin && decide (it.pos = it.n)

/-- The block being yielded holds no zero byte: the last clause of R30. -/
def State.BlockNonZero (s : State) : Prop :=
  s.iter.phase = .data → ∀ k, k < s.iter.rem → s.mem.read (s.addr .src (s.iter.pos + k)) ≠ 0

/-- The first `n` bytes of a buffer spare the message an open lazy sequence has borrowed (R238). -/
def State.sparesBorrowed (s : State) (b : Buffer) (n : Nat) : Bool :=
  s.iter.phase == .done || !rangesMeet (s.addr b 0) n (s.addr .src 0) s.iter.n

/-- How many bytes of its destination a decode in progress may write or leave without a specified value (R51, U2). -/
def Job.reach (j : Job) : Nat :=
  match j.form with
  | .dec => j.cap
  | .deci => max j.cap j.len

/-- A decode in progress writes none of the borrowed message. -/
def State.jobSparesBorrowed (s : State) : Bool :=
  match s.job with
  | none => true
  | some j => s.sparesBorrowed j.form.dest j.reach

/-- What the host owes before it issues a command: no borrowed byte in its destination (R238). That its operand registers
are written (R234) the block sees to itself, by a refusal. -/
def State.issueDuty (s : State) (i : Instr) : Bool :=
  match i with
  | .enc | .dec => s.sparesBorrowed .dst s.dstCap
  | .deci => s.sparesBorrowed .buf s.argLen
  | _ => true

/-- The host reads a result only while it is specified (R35, R241). -/
def State.readDuty (s : State) (reg : HostReg) : Bool :=
  match reg with
  | .argLen => s.specified.argLen
  | .dstCap => s.specified.dstCap
  | .rlen => s.specified.rlen
  | .sdata => s.specified.sdata
  | .status => s.specified.status
  | .svalid => s.specified.svalid
  | .cmd | .iter => false

/-- The host's next action keeps its duties (70_reset_and_hazards.md R238, R241; log 13). That it does not move `SRC` while
a sequence is open is no duty R238 lists, but follows from the model's choice of log 20, by which a sequence goes on at
the new place. -/
def State.hostDuty (s : State) : Bool :=
  match s.host with
  | [] => true
  | a :: _ =>
    match a with
    | .writeReg .cmd v | .issueByBlock v =>
      (match fetchCommand v with
       | some i => s.issueDuty i
       | none => true)
    | .writeReg _ _ => true
    | .readReg reg => s.readDuty reg
    | .poke b i _ => s.iter.phase == .done || !rangesMeet (s.addr b i) 1 (s.addr .src 0) s.iter.n
    | .peek _ _ => true
    | .place b _ => s.iter.phase == .done || b != .src
    | .reset | .resetDuring _ => true

/-- How a state ends a command with success: `STATUS` is 0, `RLEN` is the count of the bytes `out` that now lie in the
buffer `b`, every other byte of memory reads as before, and no other register has changed (R203). The decode record is
given: none after a decode, as before after an encode. -/
def State.EndsOk (t s : State) (o : Option Job) (b : Buffer) (out : List Byte) : Prop :=
  t = { s with
    job := o
    mem := t.mem
    status := 0
    rlen := out.length
    specified := { s.specified with status := true, rlen := true } } ∧
  t.mem.Holds (s.addr b 0) out ∧ s.mem.SameOutside t.mem (s.addr b 0) out.length

/-- How a state ends a command with a failure (R203, R209): `STATUS` is the code, `RLEN` is a value of `W` bits that
nothing constrains, memory outside the `n` bytes of `b` the command was entitled to write reads as before, and no other
register has changed; where the configuration leaves what was written (log 7), that is `out` and nothing else. -/
def State.EndsFailed (t s : State) (o : Option Job) (b : Buffer) (n : Nat) (out : List Byte) (code : StatusCode) : Prop :=
  t = { s with
    job := o
    mem := t.mem
    status := code.bits
    rlen := t.rlen
    free := t.free
    specified := { s.specified with status := true, rlen := false } } ∧
  t.rlen < 2 ^ s.cfg.width ∧ s.free < t.free ∧ s.mem.SameOutside t.mem (s.addr b 0) n ∧
  (s.cfg.failedDest = .written → t.mem.Holds (s.addr b 0) out ∧ s.mem.SameOutside t.mem (s.addr b 0) out.length)

/-- `n` commands `ENCS.NEXT` in a row: the bytes yielded, in order, and the state they end in; none where one of them
is refused. -/
def yieldMany : Nat → State → Option (List Byte × State)
  | 0, s => some ([], s)
  | n + 1, s =>
    match exec .encsNext s with
    | .next t =>
      match yieldMany n t with
      | some (bs, u) => some (if t.svalid then t.sdata :: bs else bs, u)
      | none => none
    | .fault _ => none
    | .refused _ => none

end Sys2Proof.Machine
end

