-- ==== Sys2Proof/Certificates/Slice0/Obligations.lean ====
section
/-! DEFINITION. The statements for the provers. "log <n>" is a row of notes/assumptions; the marks `specified` and the
fields `host`, `hostData`, `free` are the model's own (log 2, log 6, log 13). -/

open Sys2Proof Sys2Proof.Machine

/-! ### Reset and the invariants every step keeps -/

/-- 10_state.md R34, 70_reset_and_hazards.md R230, and the invariants below hold of the state after reset. The values of
the registers are the model's choice (log 3, log 4): only that they fit is said. -/
def Obligations.ResetStateIsSound : Prop :=
  State.reset.iter.phase = .done ∧ State.reset.job = none ∧ State.reset.mem.wf = true ∧
  State.reset.specified = Marks.unset ∧ State.reset.lengthsFit = true ∧ State.reset.iter.sound = true ∧
  State.reset.cursorsOrdered = true

/-- R230: a reset idles the engine, leaves ITER in phase DONE and every other register unspecified, whatever the engine
was doing; the bytes a decode in progress could not have written are not affected (R34, log 5). -/
def Obligations.ResetIdlesTheEngine : Prop :=
  ∀ (s : State) (rest : List HostAction), s.host = .reset :: rest → s.mem.wf = true →
    ∃ t, step s = .next t ∧ t.job = none ∧ t.iter.phase = .done ∧ t.specified = Marks.unset ∧
      t.cfg = s.cfg ∧ t.place = s.place ∧ t.host = rest ∧
      match s.job with
      | none => t.mem = s.mem
      | some j => s.mem.SameOutside t.mem (j.dstBase s) (match j.form with | .dec => j.cap | .deci => j.len)

/-- R34, R232, U13: a reset that comes while `ENC`, `DEC` or `DECI` runs frees the bytes the command could have written
and no others; one that comes while `LEN`, `ENCS.START` or `ENCS.NEXT` runs changes no byte; the registers are left as any
reset leaves them. Each code under its own command's conditions (R94, R160, R234, R61, R54). The host action is the
model's own (DESIGN CHOICE, log 5). -/
def Obligations.ResetDuringACommandFreesItsDestination : Prop :=
  ∀ (s : State) (rest : List HostAction) (code : Nat), s.job = none → s.host = .resetDuring code :: rest →
    (code = 1 → s.mem.wf = true → s.OperandsLegal → s.argLen ≤ s.cfg.nMax →
      ∃ t, step s = .next t ∧ t.ResetFrom s rest ∧ s.mem.SameOutside t.mem (s.addr .dst 0) s.dstCap) ∧
    (code = 2 → s.mem.wf = true → s.OperandsLegal →
      ∃ t, step s = .next t ∧ t.ResetFrom s rest ∧ s.mem.SameOutside t.mem (s.addr .dst 0) s.dstCap) ∧
    (code = 3 → s.mem.wf = true → s.InPlaceLegal →
      ∃ t, step s = .next t ∧ t.ResetFrom s rest ∧ s.mem.SameOutside t.mem (s.addr .buf 0) s.argLen) ∧
    (code = 0 ∨ code = 4 → s.LengthLegal → ∃ t, step s = .next t ∧ t.ResetFrom s rest ∧ t.mem = s.mem) ∧
    (code = 5 → (s.iter.phase = .head ∨ s.iter.phase = .data → s.touchesDevice .src s.iter.n = false) →
      ∃ t, step s = .next t ∧ t.ResetFrom s rest ∧ t.mem = s.mem)

/-- Every step keeps the canonical form of memory. -/
def Obligations.StepKeepsMemoryCanonical : Prop :=
  ∀ s t : State, s.mem.wf = true → step s = .next t → t.mem.wf = true

/-- Every step keeps every length and capacity within its `W` bits, and the write cursor of a decode in progress within
its capacity (R9, R11, R112). The read cursor and `ITER.pos` are in the next two statements. -/
def Obligations.StepKeepsLengthsInWidth : Prop :=
  ∀ s t : State, s.lengthsFit = true → step s = .next t → t.lengthsFit = true

/-- R161, R168: every step keeps the cursors of a decode in progress ordered. -/
def Obligations.StepKeepsDecoderCursorsOrdered : Prop :=
  ∀ s t : State, s.cursorsOrdered = true → step s = .next t → t.cursorsOrdered = true

/-- R30, all of it: the invariants of ITER in its own fields after reset and in every step, and, as long as the host
keeps its duties (R238), that the block being yielded holds no zero byte. (`tail` has the three values CONT, ZERO and END:
the value 3 is not there to be reached.) -/
def Obligations.StepKeepsTheIteratorInvariants : Prop :=
  (State.reset.iter.sound = true ∧ State.reset.BlockNonZero ∧ State.reset.jobSparesBorrowed = true) ∧
  (∀ s t : State, s.iter.sound = true → step s = .next t → t.iter.sound = true) ∧
  (∀ s t : State, s.iter.sound = true → s.cursorsOrdered = true → s.mem.wf = true → s.BlockNonZero →
    s.jobSparesBorrowed = true → s.hostDuty = true → step s = .next t → t.BlockNonZero ∧ t.jobSparesBorrowed = true)

/-- R8, R9: the parameters are no state; no step changes them. -/
def Obligations.StepNeverChangesTheParameters : Prop :=
  ∀ s t : State, step s = .next t → t.cfg = s.cfg

/-! ### The step runs what it meets -/

/-- R25, R91, R92: a 3-bit value the host writes to `CMD` runs, in one step, the command it is the code of. -/
def Obligations.StepRunsTheIssuedCommand : Prop :=
  ∀ (s : State) (rest : List HostAction) (v : Nat), s.job = none → s.host = .writeReg .cmd v :: rest → v < 8 →
    step s = exec (decodeCommand (BitVec.ofNat 3 v)) { s with host := rest }

/-- R82, R85, R203: inside a decode a step runs the row of the byte at the read cursor, or of the code it has ended
with. -/
def Obligations.StepRunsTheRowAtTheCursor : Prop :=
  ∀ (s : State) (j : Job), s.job = some j → s.resetPending = false →
    (j.stage = .lengthByte → j.r < j.len → step s = exec (decodeLengthByte (j.byteAt s)) s) ∧
    (j.stage = .follow → j.r < j.len → step s = exec (decodeFollow (j.byteAt s)) s) ∧
    (∀ code, j.stage = .ended code → step s = exec (decodeStatus code.bits) s)

/-- R155 (i) and (iii): where a length byte or a follow byte is due and the input has ended, the decode ends with
TruncatedFrame; nothing else changes. -/
def Obligations.StepAtTheInputsEndRaisesTruncatedFrame : Prop :=
  ∀ (s : State) (j : Job), s.job = some j → s.resetPending = false → j.len ≤ j.r →
    j.stage = .lengthByte ∨ j.stage = .follow →
    step s = .next { s with job := some { j with stage := .ended .truncatedFrame } }

/-- R34: an idle block whose host does nothing waits. -/
def Obligations.IdleBlockWaits : Prop :=
  ∀ s : State, s.job = none → s.host = [] → step s = .next s

/-- D1 and R31 (log 1): a `DEC` or `DECI` that is issued to be taken one step of the machine at a time ends, after its
issue and at most `2 * ARG_LEN + 3` steps, exactly as the command does in one transition. -/
def Obligations.DecodeInOneTransitionIsItsSteps : Prop :=
  ∀ (s t : State) (rest : List HostAction), s.job = none → ({ s with host := rest }).resetPending = false →
    (s.host = .issueByBlock 2 :: rest → exec .dec { s with host := rest } = .next t →
      ∃ n, n ≤ 2 * s.argLen + 3 ∧ Host.Core.run Sys2Proof.core (n + 1) s = .next t) ∧
    (s.host = .issueByBlock 3 :: rest → exec .deci { s with host := rest } = .next t →
      ∃ n, n ≤ 2 * s.argLen + 3 ∧ Host.Core.run Sys2Proof.core (n + 1) s = .next t)

/-! ### Encoding of the words -/

/-- Decoding the encoding of a well-formed instruction gives it back, whatever follows it. -/
def Obligations.DecodeOfEncodeIsTheInstruction : Prop :=
  ∀ (i : Instr) (rest : List Byte), i.wf = true → decode i.position (encode i ++ rest) = .ok i

/-- What the decoder accepts is the encoding of what it answers: every word of a space has one meaning there. -/
def Obligations.EncodeOfDecodeIsTheWord : Prop :=
  ∀ (p : Position) (b : Byte) (rest : List Byte) (i : Instr), decode p (b :: rest) = .ok i →
    encode i = [b] ∧ i.position = p ∧ i.wf = true

/-- Words written out from the opcode table, 30_encoding.md R82, R85, R92 and 60_exceptions.md R203. -/
def Obligations.SomeWordsDecodeAsTheTableSays : Prop :=
  decode .command [0b000] = .ok .len ∧ decode .command [0b011] = .ok .deci ∧ decode .command [0b101] = .ok .encsNext ∧
  decode .command [0b110] = .ok .reserved110 ∧ decode .lengthByte [0b00000000] = .ok .lbInvalid ∧
  decode .lengthByte [0b00000001] = .ok .lb01 ∧ decode .lengthByte [0b11111110] = .ok .lbFE ∧
  decode .lengthByte [0b11111111] = .ok .lbCont ∧ decode .follow [0b00000000] = .ok .fpTerm ∧
  decode .follow [0b00000010] = .ok (.fpImpliedZero 2) ∧ decode .status [0b00] = .ok .statusOk ∧
  decode .status [0b11] = .ok .statusInvalidLengthByte

/-! ### LEN -/

/-- R111 with R94: `LEN`, whose code is 000, posts doc00's formula for every legal length and changes nothing else; it is
refused beyond `N_MAX`. (An `ARG_LEN` not written since reset: IllegalOperandsAreRefused.) -/
def Obligations.LenPostsTheFormula : Prop :=
  encode .len = [0b000] ∧
  ∀ s : State,
    (s.LengthLegal → exec .len s = .next { s with
      rlen := s.argLen + max 1 ((s.argLen + 253) / 254) + 1
      status := 0
      specified := { s.specified with rlen := true, status := true } }) ∧
    (s.specified.argLen = true → s.cfg.nMax < s.argLen → exec .len s = .refused .messageTooLong)

/-! ### The transform as pure functions -/

/-- R123: the exact length of an encoding, and how many continuation blocks it can have. -/
def Obligations.EncodingHasItsExactLength : Prop :=
  ∀ m : List Byte, (Ref.enc m).length = m.length + Ref.conts m + 2 ∧ Ref.conts m ≤ m.length / 254 ∧
    ((∀ b ∈ m, b ≠ 0) → Ref.conts m = m.length / 254)

/-- R183: the true bounds; the lower one is reached exactly when no 254 bytes in a row are all non-zero, the upper one
when the message has no zero byte, and by others, as 254 non-zero bytes and then 0x00; so it is the smallest length that
holds every encoding of a message of that length. -/
def Obligations.EncodingLengthHasTrueBounds : Prop :=
  (∀ m : List Byte, m.length = 254 → (∀ b ∈ m, b ≠ 0) → (Ref.enc (m ++ [0x00])).length = Ref.encBound 255) ∧
  (∀ n k : Nat, (∀ m : List Byte, m.length = n → (Ref.enc m).length ≤ k) ↔ Ref.encBound n ≤ k) ∧
  ∀ m : List Byte, m.length + 2 ≤ (Ref.enc m).length ∧ (Ref.enc m).length ≤ Ref.encBound m.length ∧
    ((Ref.enc m).length = m.length + 2 ↔ ¬ ∃ a, a + 254 ≤ m.length ∧ ∀ k, k < 254 → m[a + k]? ≠ some 0) ∧
    ((∀ b ∈ m, b ≠ 0) → (Ref.enc m).length = Ref.encBound m.length)

/-- R184 (90_conflicts.md C1): what `LEN` computes bounds every encoding but those of the zero-free messages of 254, 508,
... bytes, which need one byte more. -/
def Obligations.LenFallsShortOnlyAtZeroFreeMultiplesOf254 : Prop :=
  (∀ n : Nat, Ref.encBound n = if n = 0 ∨ ¬ 254 ∣ n then maxEncodedLen n else maxEncodedLen n + 1) ∧
  (∀ m : List Byte, if 254 ≤ m.length ∧ 254 ∣ m.length ∧ ∀ b ∈ m, b ≠ 0
    then (Ref.enc m).length = maxEncodedLen m.length + 1
    else (Ref.enc m).length ≤ maxEncodedLen m.length) ∧
  (∀ m : List Byte, m ≠ [] → ¬ 254 ∣ m.length → (∀ b ∈ m, b ≠ 0) → (Ref.enc m).length = maxEncodedLen m.length)

/-- R185: the terminator invariant; in a concatenation of frames the frame boundaries are exactly the positions after
each 0x00. -/
def Obligations.TerminatorIsTheOnlyZeroAndLast : Prop :=
  (∀ m : List Byte, (Ref.enc m).count 0 = 1 ∧ (Ref.enc m).getLast? = some 0) ∧
  ∀ (ms : List (List Byte)) (k : Nat), (ms.map Ref.enc).flatten[k]? = some 0 ↔
    ∃ j, j < ms.length ∧ k + 1 = ((ms.take (j + 1)).map Ref.enc).flatten.length

/-- R187: a trailing zero byte of the message adds one empty block before the terminator. -/
def Obligations.TrailingZeroAddsAnEmptyBlock : Prop :=
  Ref.enc [0x00] = [0x01, 0x01, 0x00] ∧
  ∀ m : List Byte, Ref.enc (m ++ [0x00]) = Ref.blocks m 0 ++ [0x01, 0x00] ∧
    (Ref.enc (m ++ [0x00])).length = (Ref.enc m).length + 1

/-- R180, its pure sentence: decoding an encoding gives the message back and consumes the whole frame. -/
def Obligations.DecodingAnEncodingGivesTheMessage : Prop :=
  ∀ m : List Byte, Ref.dec (Ref.enc m) = .ok (m, (Ref.enc m).length)

/-- R192, R90: the encodings are exactly the well-formed frames of the grammar R86, no two messages share one, and the
decoder maps every well-formed frame back to its message; it also decodes inputs that are no well-formed frames, and no
message it gives for one encodes to it. -/
def Obligations.EncodingsAreTheWellFormedFrames : Prop :=
  (∀ m m' : List Byte, Ref.enc m = Ref.enc m' → m = m') ∧
  (∀ f : List Byte, Ref.IsFrame f ↔ ∃ m, Ref.enc m = f) ∧
  (∀ f : List Byte, Ref.IsFrame f → ∃ m, Ref.dec f = .ok (m, f.length) ∧ Ref.enc m = f) ∧
  (∃ (f m : List Byte) (used : Nat), ¬ Ref.IsFrame f ∧ Ref.dec f = .ok (m, used)) ∧
  (∀ (f m : List Byte) (used : Nat), ¬ Ref.IsFrame f → Ref.dec f = .ok (m, used) → Ref.enc m ≠ f)

/-- R168, R193: whatever decodes is at least two bytes shorter than what was consumed. -/
def Obligations.DecodedMessageIsTwoBytesShorter : Prop :=
  ∀ (f out : List Byte) (used : Nat), Ref.dec f = .ok (out, used) → out.length + 2 ≤ used ∧ used ≤ f.length

/-! ### ENC -/

/-- R125: with room for the frame, `ENC` writes exactly `enc` of its message, posts its length, and leaves every other
byte and register alone. -/
def Obligations.EncWritesTheFrame : Prop :=
  ∀ s : State, s.mem.wf = true → s.argLen ≤ s.cfg.nMax → s.OperandsLegal →
    (Ref.enc (s.input .src)).length ≤ s.dstCap →
    ∃ t, exec .enc s = .next t ∧ t.EndsOk s s.job .dst (Ref.enc (s.input .src))

/-- R127: `ENC` ends with BufferTooSmall if and only if the capacity is below what this message needs, which is the
length of its frame, and else with OK; a capacity of 0 or 1 always fails. -/
def Obligations.EncFailsExactlyBelowTheNeed : Prop :=
  ∀ s : State, s.mem.wf = true → s.argLen ≤ s.cfg.nMax → s.OperandsLegal →
    (Ref.enc (s.input .src)).length = s.argLen + Ref.conts (s.input .src) + 2 ∧
    ∃ t, exec .enc s = .next t ∧
      (t.status = 1 ↔ s.dstCap < s.argLen + Ref.conts (s.input .src) + 2) ∧
      (t.status = 0 ↔ s.argLen + Ref.conts (s.input .src) + 2 ≤ s.dstCap) ∧
      (s.dstCap ≤ 1 → t.status = 1)

/-- R128, R209: what a failed `ENC` leaves: the code, a free `RLEN`, and at most the bytes of `DST[0..DST_CAP)` changed;
under the reading of the pseudocode these are the frame's first bytes (log 7). -/
def Obligations.FailedEncLeavesAPrefix : Prop :=
  ∀ s : State, s.mem.wf = true → s.argLen ≤ s.cfg.nMax → s.OperandsLegal →
    s.dstCap < (Ref.enc (s.input .src)).length →
    ∃ t, exec .enc s = .next t ∧
      t.EndsFailed s s.job .dst s.dstCap ((Ref.enc (s.input .src)).take s.dstCap) .bufferTooSmall

/-! ### The lazy sequence -/

/-- R131 with R94: `ENCS.START`, whose code is 100, binds the message and rewinds, whatever sequence was open; it is
refused beyond `N_MAX`. (An `ARG_LEN` not written since reset: IllegalOperandsAreRefused. `tail` is not read in phase HEAD; END is what the pseudocode writes.) -/
def Obligations.EncsStartBindsAndRewinds : Prop :=
  encode .encsStart = [0b100] ∧
  ∀ s : State,
    (s.LengthLegal → exec .encsStart s = .next { s with
      iter := ⟨s.argLen, 0, 0, .fin, .head⟩
      status := 0
      specified := { s.specified with status := true } }) ∧
    (s.specified.argLen = true → s.cfg.nMax < s.argLen → exec .encsStart s = .refused .messageTooLong)

/-- R132, phase HEAD: the block's length byte is yielded; the run is recorded; what comes next is the run's data, or
after an empty run the next block, behind the zero byte that is consumed, or the terminator. -/
def Obligations.EncsNextYieldsALengthByteInHead : Prop :=
  ∀ s : State, s.iter.phase = .head → s.iter.pos ≤ s.iter.n → s.touchesDevice .src s.iter.n = false →
    let l := (Ref.run (s.mem.slice (s.addr .src 0) s.iter.n) s.iter.pos).1
    let kind := (Ref.run (s.mem.slice (s.addr .src 0) s.iter.n) s.iter.pos).2
    exec .encsNext s = .next { s with
      sdata := if kind = .cont then 0xFF else BitVec.ofNat 8 (l + 1)
      svalid := true
      status := 0
      specified := { s.specified with sdata := true, svalid := true, status := true }
      iter :=
        { n := s.iter.n
          pos := if l = 0 ∧ kind = .zero then s.iter.pos + 1 else s.iter.pos
          rem := l
          tail := kind
          phase := if 0 < l then .data else if kind = .fin then .term else .head } }

/-- R132, phase DATA: the next byte of the message is yielded; after the block's last byte comes what its tail says. -/
def Obligations.EncsNextYieldsADataByteInData : Prop :=
  ∀ s : State, s.iter.phase = .data → s.touchesDevice .src s.iter.n = false →
    exec .encsNext s = .next { s with
      sdata := s.mem.read (s.addr .src s.iter.pos)
      svalid := true
      status := 0
      specified := { s.specified with sdata := true, svalid := true, status := true }
      iter :=
        { n := s.iter.n
          pos := if s.iter.rem ≤ 1 ∧ s.iter.tail = .zero then s.iter.pos + 2 else s.iter.pos + 1
          rem := s.iter.rem - 1
          tail := s.iter.tail
          phase := if 1 < s.iter.rem then .data else if s.iter.tail = .fin then .term else .head } }

/-- R132, phase TERM, and R126: the terminator is yielded, once, and the sequence is done. -/
def Obligations.EncsNextYieldsTheTerminatorInTerm : Prop :=
  ∀ s : State, s.iter.phase = .term →
    exec .encsNext s = .next { s with
      sdata := 0x00
      svalid := true
      status := 0
      specified := { s.specified with sdata := true, svalid := true, status := true }
      iter := { s.iter with phase := .done } }

/-- R134: outside a live sequence `ENCS.NEXT` completes with `SVALID` 0, leaves ITER and memory unchanged and does the
same whatever memory holds; `SDATA` is a value nothing constrains (R24). -/
def Obligations.EncsNextYieldsNothingWhenDone : Prop :=
  ∀ s : State, s.iter.phase = .done →
    ∃ t, exec .encsNext s = .next t ∧
      t = { s with
        sdata := t.sdata
        svalid := false
        status := 0
        free := t.free
        specified := { s.specified with sdata := false, svalid := true, status := true } } ∧
      ∀ m : Memory, exec .encsNext { s with mem := m } = .next { t with mem := m }

/-- R133: after `ENCS.START` the first `|enc(m)|` commands `ENCS.NEXT` yield the bytes of `enc(m)` in order, each with
`SVALID` 1, and the next one ends with `SVALID` 0. -/
def Obligations.LazySequenceYieldsTheFrame : Prop :=
  ∀ s : State, s.LengthLegal → s.touchesDevice .src s.argLen = false →
    ∃ s1 u v, exec .encsStart s = .next s1 ∧
      yieldMany (Ref.enc (s.input .src)).length s1 = some (Ref.enc (s.input .src), u) ∧
      exec .encsNext u = .next v ∧ v.svalid = false

/-! ### DEC and DECI -/

/-- R150, R152, R159, R207 together: `DEC` is the reference decoder on its input, cut where the destination is full, with
the failure the byte-sequential order meets first. -/
def Obligations.DecIsTheReferenceDecoderCutAtItsCapacity : Prop :=
  ∀ s : State, s.mem.wf = true → s.OperandsLegal →
    let out := (Ref.output (s.input .src)).1
    let code := (Ref.output (s.input .src)).2
    ∃ t, exec .dec s = .next t ∧
      if out.length ≤ s.dstCap then
        (if code = .ok then t.EndsOk s none .dst out else t.EndsFailed s none .dst s.dstCap out code)
      else t.EndsFailed s none .dst s.dstCap (out.take s.dstCap) .bufferTooSmall

/-- R154's two sentences on an input that decodes: OK with the message if it fits, else BufferTooSmall. -/
def Obligations.DecSucceedsExactlyWhenTheMessageFits : Prop :=
  ∀ (s : State) (out : List Byte) (used : Nat), s.mem.wf = true → s.OperandsLegal →
    Ref.dec (s.input .src) = .ok (out, used) →
    ∃ t, exec .dec s = .next t ∧
      (out.length ≤ s.dstCap → t.EndsOk s none .dst out) ∧ (s.dstCap < out.length → t.status = 1)

/-- R168, R206: with a capacity of at least `ARG_LEN - 1` `DEC` never ends with BufferTooSmall, whatever the input, and
reports what the reference decoder reports. -/
def Obligations.DecNeverTooSmallWithOneByteLess : Prop :=
  ∀ s : State, s.mem.wf = true → s.OperandsLegal → s.argLen ≤ s.dstCap + 1 →
    ∃ t, exec .dec s = .next t ∧ t.status ≠ 1 ∧
      (match Ref.dec (s.input .src) with
       | .ok _ => t.status = 0
       | .error code => t.status = code.bits)

/-- R160, R163: a `DECI` that decodes leaves the message, taken from the bytes the buffer held at issue, in the buffer's
first bytes, and everything behind them as at issue. -/
def Obligations.DeciLeavesTheMessageAndTheRestAlone : Prop :=
  ∀ (s : State) (out : List Byte) (used : Nat), s.mem.wf = true → s.InPlaceLegal →
    Ref.dec (s.input .buf) = .ok (out, used) →
    ∃ t, exec .deci s = .next t ∧ t.EndsOk s none .buf out

/-- R162: `DECI` cannot end with BufferTooSmall, and a successful one has `RLEN <= len - 2`. -/
def Obligations.DeciNeverTooSmall : Prop :=
  ∀ s : State, s.mem.wf = true → s.InPlaceLegal →
    ∃ t, exec .deci s = .next t ∧ t.status ≠ 1 ∧ (t.status = 0 → t.rlen + 2 ≤ s.argLen)

/-- R164, R209: a `DECI` that fails changes nothing outside the input's bytes and reports what the reference decoder
reports; under the reading of the pseudocode the buffer's first bytes are what was decoded (log 7). -/
def Obligations.FailedDeciLeavesAPrefix : Prop :=
  ∀ (s : State) (code : StatusCode), s.mem.wf = true → s.InPlaceLegal →
    Ref.dec (s.input .buf) = .error code →
    ∃ t, exec .deci s = .next t ∧ t.EndsFailed s none .buf s.argLen (Ref.output (s.input .buf)).1 code

/-- R165: for every input and every capacity it names, `DEC` and `DECI` end with the same status and, on OK, with the
same length and bytes. -/
def Obligations.DecAndDeciAgree : Prop :=
  ∀ (s u : State), s.mem.wf = true → u.mem.wf = true → s.OperandsLegal → u.InPlaceLegal →
    s.argLen = u.argLen → s.input .src = u.input .buf →
    (match Ref.dec (s.input .src) with
     | .ok (out, _) => out.length ≤ s.dstCap
     | .error _ => s.argLen ≤ s.dstCap) →
    ∃ t v, exec .dec s = .next t ∧ exec .deci u = .next v ∧ t.status = v.status ∧
      (t.status = 0 → t.rlen = v.rlen ∧ t.mem.slice (s.addr .dst 0) t.rlen = v.mem.slice (u.addr .buf 0) v.rlen)

/-- R181: decoding an encoding in place gives the message back. -/
def Obligations.DeciOfAnEncodingGivesTheMessage : Prop :=
  ∀ (s : State) (m : List Byte), s.mem.wf = true → s.InPlaceLegal →
    s.argLen = (Ref.enc m).length → s.mem.Holds (s.addr .buf 0) (Ref.enc m) →
    ∃ t, exec .deci s = .next t ∧ t.status = 0 ∧ t.rlen = m.length ∧ t.mem.Holds (s.addr .buf 0) m

/-- R32, R210: what `ENC`, `DEC` and `DECI` report and recover is a function of their operand registers and input bytes
alone: no other register, no other byte and no placement matters. -/
def Obligations.ResultsDependOnOperandsAndInputAlone : Prop :=
  ∀ (i : Instr) (inp out : Buffer) (s u : State),
    (i = .enc ∧ inp = .src ∧ out = .dst ∧ s.argLen ≤ s.cfg.nMax ∧ u.argLen ≤ u.cfg.nMax ∧ s.OperandsLegal ∧
      u.OperandsLegal) ∨
    (i = .dec ∧ inp = .src ∧ out = .dst ∧ s.OperandsLegal ∧ u.OperandsLegal) ∨
    (i = .deci ∧ inp = .buf ∧ out = .buf ∧ s.InPlaceLegal ∧ u.InPlaceLegal) →
    s.mem.wf = true → u.mem.wf = true → s.argLen = u.argLen → s.dstCap = u.dstCap → s.input inp = u.input inp →
    ∃ t v, exec i s = .next t ∧ exec i u = .next v ∧ t.status = v.status ∧
      (t.status = 0 → t.rlen = v.rlen ∧ t.mem.slice (s.addr out 0) t.rlen = v.mem.slice (u.addr out 0) v.rlen)

/-! ### The rows inside a decode -/

/-- R84, R85: each of the 254 rows LB.BOUNDED_01 to LB.BOUNDED_FE, at a length-byte position with the block in the input
and room for it: the length byte and its `c - 1` data bytes are consumed, the data bytes are copied and nothing else
changes, and the follow position comes next. -/
def Obligations.BoundedRowsCopyTheirDataBytes : Prop :=
  ∀ (i : Instr) (c : Byte) (s : State) (j : Job), i.lengthValue? = some c → c ≠ 0x00 → c ≠ 0xFF →
    s.job = some j → j.stage = .lengthByte → s.mem.wf = true →
    Job.Apart (j.srcBase s) (j.dstBase s) j.len j.cap j.r j.w →
    j.r + c.toNat ≤ j.len → j.w + (c.toNat - 1) ≤ j.cap →
    ∃ t, exec i s = .next t ∧
      t = { s with
        mem := t.mem
        job := some { j with r := j.r + c.toNat, w := j.w + (c.toNat - 1), stage := .follow } } ∧
      t.mem.Holds (j.dstBase s + j.w) (s.mem.slice (j.srcBase s + j.r + 1) (c.toNat - 1)) ∧
      s.mem.SameOutside t.mem (j.dstBase s + j.w) (c.toNat - 1)

/-- R84, R166: the row LB.CONT with its 254 data bytes in the input and room for them: they are copied, and the decoder
goes straight to the next length byte. -/
def Obligations.ContinuationRowGoesToALengthByte : Prop :=
  ∀ (s : State) (j : Job), s.job = some j → j.stage = .lengthByte → s.mem.wf = true →
    Job.Apart (j.srcBase s) (j.dstBase s) j.len j.cap j.r j.w → j.r + 255 ≤ j.len → j.w + 254 ≤ j.cap →
    ∃ t, exec .lbCont s = .next t ∧
      t = { s with mem := t.mem, job := some { j with r := j.r + 255, w := j.w + 254, stage := .lengthByte } } ∧
      t.mem.Holds (j.dstBase s + j.w) (s.mem.slice (j.srcBase s + j.r + 1) 254) ∧
      s.mem.SameOutside t.mem (j.dstBase s + j.w) 254

/-- R155 (ii), R207: a block the input ends inside of, or the destination fills inside of: whichever the byte-sequential
order meets first ends the decode; only bytes from the write cursor to the capacity can have changed. -/
def Obligations.BlocksCutShortRaiseTheFirstFailureMet : Prop :=
  ∀ (i : Instr) (c : Byte) (s : State) (j : Job), i.lengthValue? = some c → c ≠ 0x00 →
    s.job = some j → j.stage = .lengthByte → s.mem.wf = true →
    Job.Apart (j.srcBase s) (j.dstBase s) j.len j.cap j.r j.w → j.r < j.len → j.w ≤ j.cap →
    (j.len < j.r + c.toNat → j.w + (j.len - j.r - 1) ≤ j.cap →
      ∃ t, exec i s = .next t ∧
        t = { s with
          mem := t.mem
          job := some { j with r := j.len, w := j.w + (j.len - j.r - 1), stage := .ended .truncatedFrame } } ∧
        s.mem.SameOutside t.mem (j.dstBase s + j.w) (j.len - j.r - 1)) ∧
    (j.cap < j.w + min (c.toNat - 1) (j.len - j.r - 1) →
      ∃ t r, exec i s = .next t ∧
        t = { s with mem := t.mem, job := some { j with r := r, w := j.cap, stage := .ended .bufferTooSmall } } ∧
        s.mem.SameOutside t.mem (j.dstBase s + j.w) (j.cap - j.w))

/-- R156: the row LB.INVALID consumes the byte and raises InvalidLengthByte; no byte of memory changes. -/
def Obligations.InvalidRowRaisesInvalidLengthByte : Prop :=
  ∀ (s : State) (j : Job), s.job = some j → j.stage = .lengthByte → j.r < j.len →
    exec .lbInvalid s = .next { s with job := some { j with r := j.r + 1, stage := .ended .invalidLengthByte } }

/-- R153: the row FP.TERM consumes the terminator, writes nothing for it, and the decode ends with success. -/
def Obligations.TerminatorRowEndsTheDecode : Prop :=
  ∀ (s : State) (j : Job), s.job = some j → j.stage = .follow → j.r < j.len →
    exec .fpTerm s = .next { s with job := some { j with r := j.r + 1, stage := .ended .ok } }

/-- R85, R207: the row FP.IMPLIED_ZERO writes one 0x00 and does not consume the byte; where the destination is full, it
raises BufferTooSmall and writes nothing. -/
def Obligations.ImpliedZeroRowWritesAZero : Prop :=
  ∀ (b : Byte) (s : State) (j : Job), s.job = some j → j.stage = .follow → j.r < j.len → s.mem.wf = true →
    (j.w < j.cap → ∃ t, exec (.fpImpliedZero b) s = .next t ∧
      t = { s with mem := t.mem, job := some { j with w := j.w + 1, stage := .lengthByte } } ∧
      t.mem.read (j.dstBase s + j.w) = 0x00 ∧ s.mem.SameOutside t.mem (j.dstBase s + j.w) 1) ∧
    (j.cap ≤ j.w → exec (.fpImpliedZero b) s = .next { s with job := some { j with stage := .ended .bufferTooSmall } })

/-- R203, R31: the four status rows: `STATUS` takes the code, the record is gone; STATUS.OK posts the count of bytes put
out in `RLEN`, a failure leaves `RLEN` free and at most the bytes it was entitled to write (U2, log 7) changed. -/
def Obligations.StatusRowsPostTheEnd : Prop :=
  ∀ (s : State) (j : Job), s.job = some j →
    (j.stage = .ended .ok → exec .statusOk s = .next { s with
      job := none
      status := 0
      rlen := j.w
      specified := { s.specified with status := true, rlen := true } }) ∧
    (∀ i code, (i = .statusBufferTooSmall ∧ code = .bufferTooSmall) ∨ (i = .statusTruncatedFrame ∧ code = .truncatedFrame) ∨
        (i = .statusInvalidLengthByte ∧ code = .invalidLengthByte) →
      j.stage = .ended code → s.mem.wf = true →
      ∃ t, exec i s = .next t ∧
        t = { s with
          job := none
          mem := t.mem
          status := code.bits
          rlen := t.rlen
          free := t.free
          specified := { s.specified with status := true, rlen := false } } ∧
        t.rlen < 2 ^ s.cfg.width ∧
        s.mem.SameOutside t.mem (j.dstBase s) (match j.form with | .dec => j.cap | .deci => j.r) ∧
        (s.cfg.failedDest = .written → t.mem = s.mem))

/-! ### What is refused -/

/-- R93: the codes 110 and 111 select no operation: refused, in every state and however they are issued. The ways
issueByBlock and resetDuring are the model's own actions (log 1, log 5), and that a reserved code issued by resetDuring is
refused, although a reset may come at any time (R232), is the model's choice (DESIGN CHOICE, log 5). -/
def Obligations.ReservedCodesAreRefused : Prop :=
  ∀ s : State, exec .reserved110 s = .refused .reservedCommand ∧ exec .reserved111 s = .refused .reservedCommand ∧
    ∀ (rest : List HostAction) (v : Nat), v = 6 ∨ v = 7 → s.job = none →
      s.host = .writeReg .cmd v :: rest ∨ s.host = .issueByBlock v :: rest ∨ s.host = .resetDuring v :: rest →
      step s = .refused .reservedCommand

/-- R234, D21: a command that reads an operand register nothing has written since reset is refused. R61: `ENC` and `DEC`
are refused when any byte of their source is also a byte of their destination. R94: `ENC` is refused when `ARG_LEN` is
beyond `N_MAX`, wherever its buffers lie; that this name comes before the overlap, and the unwritten register before either,
is the model's choice of an order (log 12). -/
def Obligations.IllegalOperandsAreRefused : Prop :=
  (∀ s : State, s.specified.argLen = false →
    exec .len s = .refused .operandUnspecified ∧ exec .enc s = .refused .operandUnspecified ∧
    exec .dec s = .refused .operandUnspecified ∧ exec .deci s = .refused .operandUnspecified ∧
    exec .encsStart s = .refused .operandUnspecified) ∧
  (∀ s : State, s.specified.dstCap = false →
    exec .enc s = .refused .operandUnspecified ∧ exec .dec s = .refused .operandUnspecified) ∧
  (∀ (s : State) (x : Nat), s.specified.argLen = true → s.specified.dstCap = true →
    s.addr .src 0 ≤ x → x < s.addr .src s.argLen → s.addr .dst 0 ≤ x → x < s.addr .dst s.dstCap →
    exec .dec s = .refused .buffersOverlap ∧
    (s.argLen ≤ s.cfg.nMax → exec .enc s = .refused .buffersOverlap)) ∧
  (∀ s : State, s.specified.argLen = true → s.specified.dstCap = true → s.cfg.nMax < s.argLen →
    exec .enc s = .refused .messageTooLong)

/-- R54: a command with its operand registers written, pointed at memory whose reads have side effects, is refused. -/
def Obligations.DeviceMemoryIsRefused : Prop :=
  ∀ (s : State) (base size x : Nat), (base, size) ∈ s.place.devices → base ≤ x → x < base + size →
    (s.specified.argLen = true → s.addr .buf 0 ≤ x → x < s.addr .buf s.argLen →
      exec .deci s = .refused .deviceMemory) ∧
    (s.specified.argLen = true → s.specified.dstCap = true → s.buffersOverlap = false →
      (s.addr .src 0 ≤ x ∧ x < s.addr .src s.argLen) ∨ (s.addr .dst 0 ≤ x ∧ x < s.addr .dst s.dstCap) →
      exec .dec s = .refused .deviceMemory ∧ (s.argLen ≤ s.cfg.nMax → exec .enc s = .refused .deviceMemory)) ∧
    (s.iter.phase = .head ∨ s.iter.phase = .data → s.addr .src 0 ≤ x → x < s.addr .src s.iter.n →
      exec .encsNext s = .refused .deviceMemory)

/-! ### What each command touches -/

/-- R205, its columns of what never happens: the statuses a command can end with. -/
def Obligations.EachCommandHasItsStatuses : Prop :=
  ∀ s t : State,
    (exec .len s = .next t → t.status = 0) ∧ (exec .encsStart s = .next t → t.status = 0) ∧
    (exec .encsNext s = .next t → t.status = 0) ∧ (exec .enc s = .next t → t.status = 0 ∨ t.status = 1) ∧
    (s.mem.wf = true → exec .deci s = .next t → t.status ≠ 1)

/-- R29, D13: ITER is written by `ENCS.START` and `ENCS.NEXT` and by no other row; R24, R28: `SDATA` and `SVALID` by
`ENCS.NEXT` alone. -/
def Obligations.OnlyTheLazySequenceTouchesItsRegisters : Prop :=
  ∀ (i : Instr) (s t : State), exec i s = .next t →
    (i ≠ .encsStart → i ≠ .encsNext → t.iter = s.iter) ∧
    (i ≠ .encsNext → t.sdata = s.sdata ∧ t.svalid = s.svalid)

/-- R21, R22, R33, R56: no row writes an operand register, and none moves a buffer, acts on the host or changes what it
has read. -/
def Obligations.OperandRegistersAreNeverWritten : Prop :=
  ∀ (i : Instr) (s t : State), exec i s = .next t →
    t.argLen = s.argLen ∧ t.dstCap = s.dstCap ∧ t.place = s.place ∧ t.host = s.host ∧ t.hostData = s.hostData ∧
    t.specified.argLen = s.specified.argLen ∧ t.specified.dstCap = s.specified.dstCap

/-! ### The host at the registers -/

/-- R21, R22, R36: the host writes the operand registers; R11: a value of `W` bits; a wider one is refused (log 18). -/
def Obligations.HostWritesTheOperandRegisters : Prop :=
  ∀ (s : State) (rest : List HostAction) (v : Nat), s.job = none →
    (s.host = .writeReg .argLen v :: rest → v < 2 ^ s.cfg.width → step s = .next { s with
      host := rest, argLen := v, specified := { s.specified with argLen := true } }) ∧
    (s.host = .writeReg .dstCap v :: rest → v < 2 ^ s.cfg.width → step s = .next { s with
      host := rest, dstCap := v, specified := { s.specified with dstCap := true } }) ∧
    (s.host = .writeReg .argLen v :: rest ∨ s.host = .writeReg .dstCap v :: rest → 2 ^ s.cfg.width ≤ v →
      step s = .refused .valueTooWide)

/-- R21 to R24, R26, R28, R36: the host reads the operand and result registers and changes nothing by it; it cannot write
the result registers. A register marked unspecified reads as what it holds, one of the two things R35 allows: the model's
choice (log 13; at State.reset the value is log 4's). That R36's missing writes are refused is the model's choice (log 18). -/
def Obligations.HostReadsTheReadableRegisters : Prop :=
  ∀ (s : State) (rest : List HostAction) (reg : HostReg), s.job = none →
    (∀ value, (reg = .argLen ∧ value = s.argLen) ∨ (reg = .dstCap ∧ value = s.dstCap) ∨ (reg = .rlen ∧ value = s.rlen) ∨
        (reg = .sdata ∧ value = s.sdata.toNat) ∨ (reg = .status ∧ value = s.status.toNat) ∨
        (reg = .svalid ∧ value = s.svalid.toNat) →
      s.host = .readReg reg :: rest → step s = .next { s with host := rest, hostData := value }) ∧
    (∀ v, reg = .rlen ∨ reg = .sdata ∨ reg = .status ∨ reg = .svalid →
      s.host = .writeReg reg v :: rest → step s = .refused .registerNotWritable)

/-- R25: a read of `CMD` is refused; R29, R36: the host can neither read nor write `ITER`. That its access to `ITER` is
refused, and not ignored, is the model's choice (DESIGN CHOICE, log 18). -/
def Obligations.CmdAndIterAreNotForTheHostToRead : Prop :=
  ∀ (s : State) (rest : List HostAction) (v : Nat), s.job = none →
    (s.host = .readReg .cmd :: rest ∨ s.host = .readReg .iter :: rest → step s = .refused .registerNotReadable) ∧
    (s.host = .writeReg .iter v :: rest → step s = .refused .registerNotWritable)

/-- R33, R56, R59, R67: the host at its buffers. A byte it puts in one is read back from it, and no other byte changes; a
read of any byte answers what memory holds there and changes nothing else; a buffer it moves lies at its new base, and no
byte, no other buffer and no register changes. That a byte in a device window is read and written like any other is the
model's choice (log 21), as is the action `place` and the contiguous placement (log 11). -/
def Obligations.HostReadsWritesAndMovesItsBuffers : Prop :=
  (∀ (s : State) (b : Buffer) (i : Nat) (v : Byte) (rest : List HostAction), s.job = none → s.mem.wf = true →
    s.host = .poke b i v :: .peek b i :: rest →
    ∃ t, step s = .next t ∧ t = { s with mem := t.mem, host := .peek b i :: rest } ∧
      s.mem.SameOutside t.mem (s.addr b i) 1 ∧
      step t = .next { t with host := rest, hostData := v.toNat }) ∧
  (∀ (s : State) (b : Buffer) (i : Nat) (rest : List HostAction), s.job = none → s.host = .peek b i :: rest →
    step s = .next { s with host := rest, hostData := (s.mem.read (s.addr b i)).toNat }) ∧
  (∀ (s : State) (b : Buffer) (base : Nat) (rest : List HostAction), s.job = none → s.host = .place b base :: rest →
    ∃ t, step s = .next t ∧ t = { s with host := rest, place := t.place } ∧ t.place.devices = s.place.devices ∧
      ∀ (c : Buffer) (i : Nat), t.addr c i = if c = b then base + i else s.addr c i)
end

