-- ==== Sys2Proof/Laws/Memory.lean ====
section
/-! SUPPORT. Memory: read after write, the canonical form, ranges of bytes. -/

namespace Sys2Proof.Machine

theorem Memory.read_nil (a : Nat) : Memory.read [] a = Memory.unlisted := rfl

theorem Memory.read_cons (k : Nat) (v : Byte) (m : Memory) (a : Nat) :
    Memory.read ((k, v) :: m) a = if k = a then v else Memory.read m a := rfl

theorem Memory.wfFrom_cons (lo k : Nat) (v : Byte) (m : Memory) :
    Memory.wfFrom lo ((k, v) :: m) = true ↔ lo ≤ k ∧ v ≠ Memory.unlisted ∧ Memory.wfFrom (k + 1) m = true := by
  simp [Memory.wfFrom, and_assoc]

theorem Memory.wfFrom_mono {lo lo' : Nat} {m : Memory} (h : Memory.wfFrom lo m = true) (hl : lo' ≤ lo) :
    Memory.wfFrom lo' m = true := by
  cases m with
  | nil => rfl
  | cons c m => obtain ⟨k, v⟩ := c; rw [wfFrom_cons] at h ⊢; exact ⟨by omega, h.2⟩

/-- Below the first address a canonical memory may list, nothing is listed. -/
theorem Memory.read_below {lo : Nat} {m : Memory} (h : Memory.wfFrom lo m = true) {a : Nat} (ha : a < lo) :
    m.read a = Memory.unlisted := by
  induction m generalizing lo with
  | nil => rfl
  | cons c m ih =>
    obtain ⟨k, v⟩ := c
    rw [wfFrom_cons] at h
    rw [read_cons, if_neg (by omega), ih h.2.2 (by omega)]

theorem Memory.write_wfFrom {lo : Nat} {m : Memory} (h : Memory.wfFrom lo m = true) {a : Nat} (ha : lo ≤ a) (b : Byte) :
    Memory.wfFrom lo (m.write a b) = true := by
  induction m generalizing lo with
  | nil =>
    unfold Memory.write
    split
    · rfl
    · rw [wfFrom_cons]; exact ⟨ha, ‹_›, rfl⟩
  | cons c m ih =>
    obtain ⟨k, v⟩ := c
    have h' := h
    rw [wfFrom_cons] at h
    unfold Memory.write
    by_cases h1 : a < k
    · rw [if_pos h1]
      split
      · exact h'
      · rw [wfFrom_cons, wfFrom_cons]; exact ⟨ha, ‹_›, by omega, h.2⟩
    · rw [if_neg h1]
      by_cases h2 : a = k
      · rw [if_pos h2]
        split
        · exact wfFrom_mono h.2.2 (by omega)
        · rw [wfFrom_cons]; exact ⟨ha, ‹_›, h2 ▸ h.2.2⟩
      · rw [if_neg h2, wfFrom_cons]
        exact ⟨h.1, h.2.1, ih h.2.2 (by omega)⟩

theorem Memory.read_write_from {lo : Nat} {m : Memory} (h : Memory.wfFrom lo m = true) (a : Nat) (b : Byte) (x : Nat) :
    (m.write a b).read x = if x = a then b else m.read x := by
  induction m generalizing lo with
  | nil =>
    unfold Memory.write
    by_cases hb : b = Memory.unlisted
    · simp [hb, Memory.read]
    · rw [if_neg hb, read_cons]; simp only [eq_comm, Memory.read]
  | cons c m ih =>
    obtain ⟨k, v⟩ := c
    have h' := h
    rw [wfFrom_cons] at h
    unfold Memory.write
    by_cases h1 : a < k
    · rw [if_pos h1]
      by_cases hb : b = Memory.unlisted
      · rw [if_pos hb]
        by_cases hx : x = a
        · rw [if_pos hx, hx, hb, read_cons, if_neg (by omega), read_below h.2.2 (by omega)]
        · rw [if_neg hx]
      · rw [if_neg hb, read_cons]; simp only [eq_comm]
    · rw [if_neg h1]
      by_cases h2 : a = k
      · subst h2
        rw [if_pos rfl]
        by_cases hb : b = Memory.unlisted
        · rw [if_pos hb]
          by_cases hx : x = a
          · rw [if_pos hx, hx, hb, read_below h.2.2 (by omega)]
          · rw [if_neg hx, read_cons, if_neg (by omega)]
        · rw [if_neg hb, read_cons, read_cons]
          by_cases hx : x = a
          · simp [hx]
          · rw [if_neg (by omega), if_neg hx, if_neg (by omega)]
      · rw [if_neg h2, read_cons, read_cons, ih h.2.2]
        by_cases hk : k = x
        · rw [if_pos hk, if_pos hk, if_neg (by omega)]
        · rw [if_neg hk, if_neg hk]

/-- A write keeps the canonical form. -/
theorem Memory.write_wf {m : Memory} (h : m.wf = true) (a : Nat) (b : Byte) : (m.write a b).wf = true :=
  Memory.write_wfFrom h (Nat.zero_le a) b

/-- A read after a write: the byte written at its address, every other byte as before. -/
theorem Memory.read_write {m : Memory} (h : m.wf = true) (a : Nat) (b : Byte) (x : Nat) :
    (m.write a b).read x = if x = a then b else m.read x :=
  Memory.read_write_from h a b x

theorem Memory.read_write_self {m : Memory} (h : m.wf = true) (a : Nat) (b : Byte) : (m.write a b).read a = b := by
  rw [read_write h, if_pos rfl]

theorem Memory.read_write_other {m : Memory} (h : m.wf = true) {a x : Nat} (b : Byte) (hx : x ≠ a) :
    (m.write a b).read x = m.read x := by
  rw [read_write h, if_neg hx]

@[simp] theorem Memory.slice_length (m : Memory) (base n : Nat) : (m.slice base n).length = n := by
  induction n generalizing base with
  | zero => rfl
  | succ n ih => simp [Memory.slice, ih]

theorem Memory.slice_getElem (m : Memory) (base n i : Nat) (h : i < (m.slice base n).length) :
    (m.slice base n)[i] = m.read (base + i) := by
  induction n generalizing base i with
  | zero => simp at h
  | succ n ih =>
    cases i with
    | zero => rfl
    | succ i =>
      have := ih (base + 1) i (by simp at h ⊢; omega)
      simpa [Memory.slice, Nat.add_assoc, Nat.add_comm 1 i] using this

theorem Memory.slice_getElem? (m : Memory) (base n i : Nat) :
    (m.slice base n)[i]? = if i < n then some (m.read (base + i)) else none := by
  by_cases h : i < n
  · rw [if_pos h, List.getElem?_eq_getElem (by simpa using h), slice_getElem]
  · rw [if_neg h, List.getElem?_eq_none (by simpa using h)]

/-- Two memories that agree on a range hold the same bytes there. -/
theorem Memory.slice_congr {m m' : Memory} {base n : Nat}
    (h : ∀ i, i < n → m'.read (base + i) = m.read (base + i)) : m'.slice base n = m.slice base n := by
  induction n generalizing base with
  | zero => rfl
  | succ n ih =>
    have h0 := h 0 (by omega)
    simp only [Memory.slice]
    rw [show m'.read base = m.read base by simpa using h0,
      ih fun i hi => by have := h (i + 1) (by omega); rwa [Nat.add_comm i 1, ← Nat.add_assoc] at this]

theorem Memory.slice_add (m : Memory) (base n k : Nat) :
    m.slice base (n + k) = m.slice base n ++ m.slice (base + n) k := by
  induction n generalizing base with
  | zero => simp [Memory.slice]
  | succ n ih =>
    rw [show n + 1 + k = (n + k) + 1 by omega]
    simp only [Memory.slice, List.cons_append]
    rw [ih, Nat.add_assoc, Nat.add_comm 1 n]

theorem Memory.slice_drop (m : Memory) (base n k : Nat) (h : k ≤ n) :
    (m.slice base n).drop k = m.slice (base + k) (n - k) := by
  obtain ⟨d, rfl⟩ := Nat.exists_eq_add_of_le h
  rw [slice_add, List.drop_append_of_le_length (by simp)]
  simp

theorem Memory.slice_take (m : Memory) (base n k : Nat) (h : k ≤ n) : (m.slice base n).take k = m.slice base k := by
  obtain ⟨d, rfl⟩ := Nat.exists_eq_add_of_le h
  rw [slice_add, List.take_append_of_le_length (by simp)]
  simp

theorem Memory.spoil_wf (k base n : Nat) {m : Memory} (h : m.wf = true) : (m.spoil k base n).wf = true := by
  induction n generalizing m with
  | zero => exact h
  | succ n ih => exact ih (write_wf h _ _)

/-- Spoiling a range leaves every byte outside it alone. -/
theorem Memory.read_spoil_outside (k base n : Nat) {m : Memory} (h : m.wf = true) {a : Nat}
    (ha : a < base ∨ base + n ≤ a) : (m.spoil k base n).read a = m.read a := by
  induction n generalizing m with
  | zero => rfl
  | succ n ih =>
    have := ih (m := m.write (base + n) (Config.freeByte k n)) (write_wf h _ _) (by omega)
    rw [Memory.spoil, this, read_write_other h _ (by omega)]

/-- The byte of a spoiled range is the free value of its place. -/
theorem Memory.read_spoil_inside (k base n : Nat) {m : Memory} (h : m.wf = true) {i : Nat} (hi : i < n) :
    (m.spoil k base n).read (base + i) = Config.freeByte k i := by
  induction n generalizing m with
  | zero => omega
  | succ n ih =>
    rw [Memory.spoil]
    by_cases hin : i = n
    · subst hin
      rw [read_spoil_outside _ _ _ (write_wf h _ _) (by omega), read_write_self h]
    · exact ih (write_wf h _ _) (by omega)

theorem Memory.store_wf (base : Nat) (bs : List Byte) {m : Memory} (h : m.wf = true) : (m.store base bs).wf = true := by
  induction bs generalizing m base with
  | nil => exact h
  | cons b bs ih => exact ih (base + 1) (write_wf h _ _)

/-- Storing a sequence leaves every byte outside its range alone. -/
theorem Memory.read_store_outside (base : Nat) (bs : List Byte) {m : Memory} (h : m.wf = true) {a : Nat}
    (ha : a < base ∨ base + bs.length ≤ a) : (m.store base bs).read a = m.read a := by
  induction bs generalizing m base with
  | nil => rfl
  | cons b bs ih =>
    simp only [List.length_cons] at ha
    rw [Memory.store, ih (base + 1) (write_wf h _ _) (by omega), read_write_other h _ (by omega)]

/-- A stored sequence is read back. -/
theorem Memory.slice_store (base : Nat) (bs : List Byte) {m : Memory} (h : m.wf = true) :
    (m.store base bs).slice base bs.length = bs := by
  induction bs generalizing m base with
  | nil => rfl
  | cons b bs ih =>
    simp only [List.length_cons, Memory.slice, Memory.store]
    rw [ih (base + 1) (write_wf h _ _), read_store_outside _ _ (write_wf h _ _) (by omega), read_write_self h]

theorem Memory.store_append (base : Nat) (as bs : List Byte) (m : Memory) :
    m.store base (as ++ bs) = (m.store base as).store (base + as.length) bs := by
  induction as generalizing m base with
  | nil => simp [Memory.store]
  | cons a as ih => simp only [List.cons_append, Memory.store, ih, List.length_cons]; congr 1; omega

theorem rangesMeet_false {a n b m : Nat} : rangesMeet a n b m = false ↔ ∀ x, a ≤ x → x < a + n → ¬ (b ≤ x ∧ x < b + m) := by
  simp only [rangesMeet, decide_eq_false_iff_not, Nat.not_lt]
  constructor
  · intro h x; omega
  · intro h
    by_contra hc
    exact h (max a b) (by omega) (by omega) (by omega)

end Sys2Proof.Machine
end

