-- ==== Sys2Proof/Laws/Scan.lean ====
section
/-! SUPPORT. The machine's scan is the reference's run (R120), and what a run is. -/

namespace Sys2Proof.Machine

theorem scanCount_eq (m : Memory) (base n fuel p : Nat) :
    scanCount m base n fuel p = min fuel ((m.slice (base + p) (n - p)).takeWhile (· != 0)).length := by
  induction fuel generalizing p with
  | zero => simp [scanCount]
  | succ fuel ih =>
    unfold scanCount
    by_cases hp : p < n
    · obtain ⟨d, hd⟩ : ∃ d, n - p = d + 1 := ⟨n - p - 1, by omega⟩
      have hd' : n - (p + 1) = d := by omega
      rw [hd, Memory.slice, List.takeWhile_cons]
      by_cases hb : m.read (base + p) = 0
      · simp [hb]
      · rw [if_pos ⟨hp, hb⟩, ih, hd', if_pos (by simpa using hb), List.length_cons, Nat.add_assoc base p 1]
        omega
    · rw [if_neg (fun h => hp h.1), show n - p = 0 by omega]
      simp [Memory.slice]

theorem Ref.runLen_le_length (m : List Byte) : Ref.runLen m ≤ m.length :=
  (Nat.min_le_right _ _).trans (List.takeWhile_prefix _).length_le

theorem Ref.runLen_le (m : List Byte) : Ref.runLen m ≤ 254 := Nat.min_le_left _ _

theorem Ref.runKind_cont {m : List Byte} (h : Ref.runKind m = .cont) : Ref.runLen m = 254 := by
  unfold Ref.runKind at h
  split at h
  · assumption
  · split at h <;> cases h

theorem Ref.runKind_fin {m : List Byte} (h : Ref.runKind m = .fin) : Ref.runLen m = m.length ∧ m.length < 254 := by
  have := Ref.runLen_le m
  unfold Ref.runKind at h
  split at h
  · cases h
  · split at h
    · exact ⟨‹_›, by omega⟩
    · cases h

theorem Ref.runKind_zero {m : List Byte} (h : Ref.runKind m = .zero) :
    Ref.runLen m < 254 ∧ Ref.runLen m < m.length := by
  have := Ref.runLen_le m
  have := Ref.runLen_le_length m
  unfold Ref.runKind at h
  split at h
  · cases h
  · split at h
    · cases h
    · omega

/-- The bytes of a run are not zero. -/
theorem Ref.run_nonzero (m : List Byte) : ∀ b ∈ m.take (Ref.runLen m), b ≠ 0 := by
  intro b hb
  have h1 : m.take (Ref.runLen m) <+: m.takeWhile (· != 0) := by
    have hp : m.takeWhile (· != 0) <+: m := List.takeWhile_prefix _
    have : (m.takeWhile (· != 0)).take (Ref.runLen m) = m.take (Ref.runLen m) := by
      rw [List.prefix_iff_eq_take.mp hp, List.take_take, Nat.min_eq_left]
      exact Nat.min_le_right _ _
    rw [← this]; exact List.take_prefix _ _
  have := List.mem_takeWhile_imp (h1.subset hb)
  simpa using this

/-- The byte that ends a run of kind ZERO is zero. -/
theorem Ref.runKind_zero_byte {m : List Byte} (h : Ref.runKind m = .zero) :
    m[Ref.runLen m]? = some 0 := by
  obtain ⟨h1, h2⟩ := Ref.runKind_zero h
  have hl : Ref.runLen m = (m.takeWhile (· != 0)).length := by
    unfold Ref.runLen at h1 ⊢; omega
  rw [hl] at h2 ⊢
  clear h h1 hl
  induction m with
  | nil => simp at h2
  | cons b m ih =>
    rw [List.takeWhile_cons] at h2 ⊢
    by_cases hb : b = 0
    · simp [hb]
    · rw [if_pos (by simpa using hb)] at h2 ⊢
      simpa using ih (by simpa using h2)

/-- The scan over memory is `run` of the message that lies there (R120). -/
theorem scanRun_eq (m : Memory) (base n p : Nat) (hp : p ≤ n) :
    scanRun m base n p = Ref.run (m.slice base n) p := by
  have hs : (m.slice base n).drop p = m.slice (base + p) (n - p) := Memory.slice_drop m base n p hp
  have hc : scanCount m base n 254 p = Ref.runLen (m.slice (base + p) (n - p)) := scanCount_eq m base n 254 p
  have hle := Ref.runLen_le_length (m.slice (base + p) (n - p))
  rw [Memory.slice_length] at hle
  unfold scanRun Ref.run
  rw [hs]
  simp only [hc]
  refine Prod.ext rfl ?_
  simp only [Ref.runKind, Memory.slice_length]
  split
  · rfl
  · by_cases h : p + Ref.runLen (m.slice (base + p) (n - p)) < n
    · rw [if_pos h, if_neg (by omega)]
    · rw [if_neg h, if_pos (by omega)]

end Sys2Proof.Machine
end

