-- ==== Sys2Proof/Laws/Encode.lean ====
section
/-! SUPPORT. `put` and the loops of the encoder: each emits a sequence of bytes, cut where the destination is full. -/

namespace Sys2Proof.Machine

theorem putByte_room {cap : Nat} {c : Cursors} (dst : Nat) (b : Byte) (h : c.w < cap) :
    putByte dst cap b c = .go { c with mem := c.mem.write (dst + c.w) b, w := c.w + 1 } := by
  rw [putByte, if_neg (by omega)]

theorem putByte_full {cap : Nat} {c : Cursors} (dst : Nat) (b : Byte) (h : cap ≤ c.w) :
    putByte dst cap b c = .raised c .bufferTooSmall := by
  rw [putByte, if_pos h]

/-- A flow that puts out the bytes `bs` from the write cursor on and then goes on with the read cursor at `r`, or raises
BufferTooSmall where the capacity ends. -/
def Flow.Emits (f : Flow) (dst cap : Nat) (bs : List Byte) (c : Cursors) (r : Nat) : Prop :=
  if c.w + bs.length ≤ cap then f = .go ⟨c.mem.store (dst + c.w) bs, r, c.w + bs.length⟩
  else ∃ r', f = .raised ⟨c.mem.store (dst + c.w) (bs.take (cap - c.w)), r', max c.w cap⟩ .bufferTooSmall

theorem Flow.emits_nil {dst cap : Nat} {c : Cursors} (h : c.w ≤ cap) : (Flow.go c).Emits dst cap [] c c.r := by
  rw [Emits, if_pos (by simpa using h)]; rfl

theorem putByte_emits {dst cap : Nat} {c : Cursors} (b : Byte) (h : c.w ≤ cap) :
    (putByte dst cap b c).Emits dst cap [b] c c.r := by
  unfold Flow.Emits
  by_cases h1 : c.w < cap
  · rw [if_pos (by simpa using h1), putByte_room dst b h1]; rfl
  · have : cap - c.w = 0 := by omega
    rw [if_neg (by simp; omega), putByte_full dst b (by omega)]
    refine ⟨c.r, ?_⟩
    rw [this, List.take_zero, Memory.store, Nat.max_eq_left (by omega)]

/-- Emitting one sequence and then another is emitting them joined. -/
theorem Flow.Emits.andThen {f : Flow} {k : Cursors → Flow} {dst cap : Nat} {as bs : List Byte} {c : Cursors}
    {r r' : Nat} (hw : c.w ≤ cap) (hf : f.Emits dst cap as c r)
    (hk : c.w + as.length ≤ cap →
      (k ⟨c.mem.store (dst + c.w) as, r, c.w + as.length⟩).Emits dst cap bs
        ⟨c.mem.store (dst + c.w) as, r, c.w + as.length⟩ r') :
    (f.andThen k).Emits dst cap (as ++ bs) c r' := by
  unfold Emits at hf
  by_cases h1 : c.w + as.length ≤ cap
  · rw [if_pos h1] at hf
    have hk := hk h1
    rw [hf]
    unfold Emits at hk ⊢
    simp only [List.length_append] at hk ⊢
    by_cases h2 : c.w + as.length + bs.length ≤ cap
    · rw [if_pos h2] at hk
      rw [if_pos (by omega), Flow.andThen, hk, Memory.store_append, Nat.add_assoc dst, Nat.add_assoc c.w]
    · rw [if_neg h2] at hk
      obtain ⟨r2, hk⟩ := hk
      rw [if_neg (by omega)]
      refine ⟨r2, ?_⟩
      have ht : (as ++ bs).take (cap - c.w) = as ++ bs.take (cap - (c.w + as.length)) := by
        rw [List.take_append, List.take_of_length_le (by omega), Nat.sub_sub]
      rw [Flow.andThen, hk, ht, Memory.store_append, Nat.add_assoc dst,
        show max (c.w + as.length) cap = max c.w cap by omega]
  · rw [if_neg h1] at hf
    obtain ⟨r2, hf⟩ := hf
    unfold Emits
    rw [if_neg (by simp only [List.length_append]; omega)]
    refine ⟨r2, ?_⟩
    rw [hf, Flow.andThen, List.take_append_of_le_length (by omega)]

/-- Emitting into a destination that spares a range leaves the range's bytes alone. -/
theorem store_spares {dst cap w a n : Nat} {bs : List Byte} {m : Memory} (hm : m.wf = true) (hw : w + bs.length ≤ cap)
    (hd : rangesMeet a n dst cap = false) : (m.store (dst + w) bs).slice a n = m.slice a n := by
  apply Memory.slice_congr
  intro i hi
  apply Memory.read_store_outside _ _ hm
  have := rangesMeet_false.mp hd (a + i) (by omega) (by omega)
  omega

/-- The copy of a run emits the run's bytes. -/
theorem copyRun_emits {src dst cap n : Nat} (hd : rangesMeet src n dst cap = false) (l : Nat) (c : Cursors)
    (hm : c.mem.wf = true) (hw : c.w ≤ cap) (hr : c.r + l ≤ n) :
    (copyRun src dst cap l c).Emits dst cap (c.mem.slice (src + c.r) l) c (c.r + l) := by
  induction l generalizing c with
  | zero => exact Flow.emits_nil hw
  | succ l ih =>
    rw [copyRun, Memory.slice, ← List.singleton_append]
    refine (putByte_emits _ hw).andThen hw fun h1 => ?_
    have hs : (c.mem.store (dst + c.w) [c.mem.read (src + c.r)]).slice (src + c.r + 1) l =
        c.mem.slice (src + c.r + 1) l := by
      apply Memory.slice_congr
      intro i hi
      apply Memory.read_store_outside _ _ hm
      have := rangesMeet_false.mp hd (src + c.r + 1 + i) (by omega) (by omega)
      simp at h1 ⊢
      omega
    have := ih ⟨c.mem.store (dst + c.w) [c.mem.read (src + c.r)], c.r + 1, c.w + 1⟩ (Memory.store_wf _ _ hm)
      (by simpa using h1) (by simp; omega)
    simp only [← Nat.add_assoc] at this
    rw [hs, Nat.add_assoc c.r 1 l, Nat.add_comm 1 l] at this
    simpa [Flow.Emits, Nat.add_assoc] using this

/-- The encoder's loop emits the blocks of what is left of the message and ends at the message's end (R121, R125). -/
theorem encodeLoop_emits {src dst n cap : Nat} (hd : rangesMeet src n dst cap = false) (fuel : Nat) (c : Cursors)
    (hm : c.mem.wf = true) (hw : c.w ≤ cap) (hr : c.r ≤ n) (hf : n - c.r < fuel) :
    (encodeLoop src dst n cap fuel c).Emits dst cap (Ref.blocksOf fuel (c.mem.slice (src + c.r) (n - c.r))) c n := by
  induction fuel generalizing c with
  | zero => omega
  | succ fuel ih =>
    have hrun := scanRun_eq c.mem src n c.r hr
    rw [Ref.run, Memory.slice_drop _ _ _ _ hr] at hrun
    have hlen := Ref.runLen_le_length (c.mem.slice (src + c.r) (n - c.r))
    rw [Memory.slice_length] at hlen
    have hkc : Ref.runKind (c.mem.slice (src + c.r) (n - c.r)) = .cont → _ := Ref.runKind_cont
    have hkz : Ref.runKind (c.mem.slice (src + c.r) (n - c.r)) = .zero → _ := Ref.runKind_zero
    have hkf : Ref.runKind (c.mem.slice (src + c.r) (n - c.r)) = .fin → _ := Ref.runKind_fin
    rw [Memory.slice_length] at hkz hkf
    have htake := Memory.slice_take c.mem (src + c.r) (n - c.r) _ hlen
    have hdrop := fun k (hk : k ≤ n - c.r) => Memory.slice_drop c.mem (src + c.r) (n - c.r) k hk
    unfold encodeLoop Ref.blocksOf
    simp only [hrun]
    generalize Ref.runLen (c.mem.slice (src + c.r) (n - c.r)) = l at *
    generalize Ref.runKind (c.mem.slice (src + c.r) (n - c.r)) = kind at *
    -- the length byte and the run, and then whatever the loop goes on with
    have key : ∀ (k : Cursors → Flow) (tail : List Byte),
        (∀ m', m'.wf = true → (∀ i, i < n → m'.read (src + i) = c.mem.read (src + i)) →
          c.w + (1 + l) ≤ cap →
          (k ⟨m', c.r + l, c.w + (1 + l)⟩).Emits dst cap tail ⟨m', c.r + l, c.w + (1 + l)⟩ n) →
        ((putByte dst cap (runLengthByte l kind) c).andThen fun c1 => (copyRun src dst cap l c1).andThen k).Emits dst cap
          ([runLengthByte l kind] ++ (c.mem.slice (src + c.r) l ++ tail)) c n := by
      intro k tail hk
      refine (putByte_emits _ hw).andThen hw fun h1 => ?_
      simp only [List.length_singleton] at h1 ⊢
      have hsp : ∀ i, i < n → (c.mem.store (dst + c.w) [runLengthByte l kind]).read (src + i) = c.mem.read (src + i) := by
        intro i hi
        apply Memory.read_store_outside _ _ hm
        have := rangesMeet_false.mp hd (src + i) (by omega) (by omega)
        simp; omega
      have hcp := copyRun_emits hd l ⟨c.mem.store (dst + c.w) [runLengthByte l kind], c.r, c.w + 1⟩
        (Memory.store_wf _ _ hm) h1 (by simp; omega)
      have hs : (c.mem.store (dst + c.w) [runLengthByte l kind]).slice (src + c.r) l = c.mem.slice (src + c.r) l :=
        Memory.slice_congr fun i hi => by rw [Nat.add_assoc]; exact hsp _ (by omega)
      simp only [hs] at hcp
      refine hcp.andThen h1 fun h2 => ?_
      simp only [Memory.slice_length] at h2 ⊢
      rw [show c.w + 1 + l = c.w + (1 + l) by omega] at h2 ⊢
      refine hk _ (Memory.store_wf _ _ (Memory.store_wf _ _ hm)) (fun i hi => ?_) h2
      rw [Memory.read_store_outside _ _ (Memory.store_wf _ _ hm), hsp i hi]
      have := rangesMeet_false.mp hd (src + i) (by omega) (by omega)
      simp; omega
    -- one more round from a memory that holds the same message
    have round : ∀ m' d, l ≤ d → 0 < d → d ≤ n - c.r → m'.wf = true →
        (∀ i, i < n → m'.read (src + i) = c.mem.read (src + i)) → c.w + (1 + l) ≤ cap →
        (encodeLoop src dst n cap fuel ⟨m', c.r + d, c.w + (1 + l)⟩).Emits dst cap
          (Ref.blocksOf fuel (c.mem.slice (src + c.r + d) (n - c.r - d))) ⟨m', c.r + d, c.w + (1 + l)⟩ n := by
      intro m' d _ hd0 hdn hm' hsame hcap
      have h := ih ⟨m', c.r + d, c.w + (1 + l)⟩ hm' hcap (by simp; omega) (by simp; omega)
      have : m'.slice (src + (c.r + d)) (n - (c.r + d)) = c.mem.slice (src + c.r + d) (n - c.r - d) := by
        rw [← Nat.add_assoc, Nat.sub_sub]
        exact Memory.slice_congr fun i hi => by
          rw [show src + c.r + d + i = src + (c.r + d + i) by omega]; exact hsame _ (by omega)
      rwa [this] at h
    cases kind with
    | cont =>
      have hl : l = 254 := hkc rfl
      subst hl
      simp only [hdrop 254 hlen, htake]
      exact key _ _ fun m' hm' hsame hcap => round m' 254 (by omega) (by omega) hlen hm' hsame hcap
    | zero =>
      have hz := (hkz rfl).2
      simp only [hdrop (l + 1) (by omega), htake]
      exact key _ _ fun m' hm' hsame hcap => round m' (l + 1) (by omega) (by omega) (by omega) hm' hsame hcap
    | fin =>
      have hl : l = n - c.r := (hkf rfl).1
      simp only [htake]
      have := key Flow.go [] fun m' hm' hsame hcap => by
        have hn : c.r + l = n := by omega
        rw [hn]
        exact Flow.emits_nil (c := ⟨m', n, c.w + (1 + l)⟩) hcap
      rw [List.append_nil] at this
      exact this

/-- `ENC` emits `enc` of its message (R122, R125). -/
theorem encodeFrame_emits {m : Memory} {src dst n cap : Nat} (hm : m.wf = true)
    (hd : rangesMeet src n dst cap = false) :
    (encodeFrame m src dst n cap).Emits dst cap (Ref.enc (m.slice src n)) ⟨m, 0, 0⟩ n := by
  have h := encodeLoop_emits hd (n + 1) ⟨m, 0, 0⟩ hm (Nat.zero_le _) (Nat.zero_le _) (by simp)
  unfold encodeFrame Ref.enc Ref.blocks
  simp only [Nat.add_zero, Nat.sub_zero] at h
  simp only [List.drop_zero, Memory.slice_length]
  exact h.andThen (Nat.zero_le _) fun h1 => putByte_emits _ h1

end Sys2Proof.Machine
end

