-- ==== Sys2Proof/Laws/State.lean ====
section
/-! SUPPORT. One lemma per field and update of State. -/

namespace Sys2Proof.Machine

/-! The fields of `postStatus`. -/

@[simp] theorem State.postStatus_cfg (s : State) (code : StatusCode) :
    (s.postStatus code).cfg = s.cfg := rfl

@[simp] theorem State.postStatus_argLen (s : State) (code : StatusCode) :
    (s.postStatus code).argLen = s.argLen := rfl

@[simp] theorem State.postStatus_dstCap (s : State) (code : StatusCode) :
    (s.postStatus code).dstCap = s.dstCap := rfl

@[simp] theorem State.postStatus_rlen (s : State) (code : StatusCode) :
    (s.postStatus code).rlen = s.rlen := rfl

@[simp] theorem State.postStatus_sdata (s : State) (code : StatusCode) :
    (s.postStatus code).sdata = s.sdata := rfl

@[simp] theorem State.postStatus_status (s : State) (code : StatusCode) :
    (s.postStatus code).status = code.bits := rfl

@[simp] theorem State.postStatus_svalid (s : State) (code : StatusCode) :
    (s.postStatus code).svalid = s.svalid := rfl

@[simp] theorem State.postStatus_iter (s : State) (code : StatusCode) :
    (s.postStatus code).iter = s.iter := rfl

@[simp] theorem State.postStatus_job (s : State) (code : StatusCode) :
    (s.postStatus code).job = s.job := rfl

@[simp] theorem State.postStatus_mem (s : State) (code : StatusCode) :
    (s.postStatus code).mem = s.mem := rfl

@[simp] theorem State.postStatus_place (s : State) (code : StatusCode) :
    (s.postStatus code).place = s.place := rfl

@[simp] theorem State.postStatus_host (s : State) (code : StatusCode) :
    (s.postStatus code).host = s.host := rfl

@[simp] theorem State.postStatus_hostData (s : State) (code : StatusCode) :
    (s.postStatus code).hostData = s.hostData := rfl

@[simp] theorem State.postStatus_free (s : State) (code : StatusCode) :
    (s.postStatus code).free = s.free := rfl

@[simp] theorem State.postStatus_specified (s : State) (code : StatusCode) :
    (s.postStatus code).specified = { s.specified with status := true } := rfl

/-! The fields of `postOk`. -/

@[simp] theorem State.postOk_cfg (s : State) (v : Nat) :
    (s.postOk v).cfg = s.cfg := rfl

@[simp] theorem State.postOk_argLen (s : State) (v : Nat) :
    (s.postOk v).argLen = s.argLen := rfl

@[simp] theorem State.postOk_dstCap (s : State) (v : Nat) :
    (s.postOk v).dstCap = s.dstCap := rfl

@[simp] theorem State.postOk_rlen (s : State) (v : Nat) :
    (s.postOk v).rlen = v := rfl

@[simp] theorem State.postOk_sdata (s : State) (v : Nat) :
    (s.postOk v).sdata = s.sdata := rfl

@[simp] theorem State.postOk_status (s : State) (v : Nat) :
    (s.postOk v).status = 0 := rfl

@[simp] theorem State.postOk_svalid (s : State) (v : Nat) :
    (s.postOk v).svalid = s.svalid := rfl

@[simp] theorem State.postOk_iter (s : State) (v : Nat) :
    (s.postOk v).iter = s.iter := rfl

@[simp] theorem State.postOk_job (s : State) (v : Nat) :
    (s.postOk v).job = s.job := rfl

@[simp] theorem State.postOk_mem (s : State) (v : Nat) :
    (s.postOk v).mem = s.mem := rfl

@[simp] theorem State.postOk_place (s : State) (v : Nat) :
    (s.postOk v).place = s.place := rfl

@[simp] theorem State.postOk_host (s : State) (v : Nat) :
    (s.postOk v).host = s.host := rfl

@[simp] theorem State.postOk_hostData (s : State) (v : Nat) :
    (s.postOk v).hostData = s.hostData := rfl

@[simp] theorem State.postOk_free (s : State) (v : Nat) :
    (s.postOk v).free = s.free := rfl

@[simp] theorem State.postOk_specified (s : State) (v : Nat) :
    (s.postOk v).specified = { s.specified with status := true, rlen := true } := rfl

/-! The fields of `postFailure`. -/

@[simp] theorem State.postFailure_cfg (s : State) (code : StatusCode) :
    (s.postFailure code).cfg = s.cfg := rfl

@[simp] theorem State.postFailure_argLen (s : State) (code : StatusCode) :
    (s.postFailure code).argLen = s.argLen := rfl

@[simp] theorem State.postFailure_dstCap (s : State) (code : StatusCode) :
    (s.postFailure code).dstCap = s.dstCap := rfl

@[simp] theorem State.postFailure_rlen (s : State) (code : StatusCode) :
    (s.postFailure code).rlen = Config.freeLen s.free % 2 ^ s.cfg.width := rfl

@[simp] theorem State.postFailure_sdata (s : State) (code : StatusCode) :
    (s.postFailure code).sdata = s.sdata := rfl

@[simp] theorem State.postFailure_status (s : State) (code : StatusCode) :
    (s.postFailure code).status = code.bits := rfl

@[simp] theorem State.postFailure_svalid (s : State) (code : StatusCode) :
    (s.postFailure code).svalid = s.svalid := rfl

@[simp] theorem State.postFailure_iter (s : State) (code : StatusCode) :
    (s.postFailure code).iter = s.iter := rfl

@[simp] theorem State.postFailure_job (s : State) (code : StatusCode) :
    (s.postFailure code).job = s.job := rfl

@[simp] theorem State.postFailure_mem (s : State) (code : StatusCode) :
    (s.postFailure code).mem = s.mem := rfl

@[simp] theorem State.postFailure_place (s : State) (code : StatusCode) :
    (s.postFailure code).place = s.place := rfl

@[simp] theorem State.postFailure_host (s : State) (code : StatusCode) :
    (s.postFailure code).host = s.host := rfl

@[simp] theorem State.postFailure_hostData (s : State) (code : StatusCode) :
    (s.postFailure code).hostData = s.hostData := rfl

@[simp] theorem State.postFailure_free (s : State) (code : StatusCode) :
    (s.postFailure code).free = s.free + 1 := rfl

@[simp] theorem State.postFailure_specified (s : State) (code : StatusCode) :
    (s.postFailure code).specified = { s.specified with status := true, rlen := false } := rfl

/-! The fields of `spoil`. -/

@[simp] theorem State.spoil_cfg (s : State) (b : Buffer) (n : Nat) :
    (s.spoil b n).cfg = s.cfg := rfl

@[simp] theorem State.spoil_argLen (s : State) (b : Buffer) (n : Nat) :
    (s.spoil b n).argLen = s.argLen := rfl

@[simp] theorem State.spoil_dstCap (s : State) (b : Buffer) (n : Nat) :
    (s.spoil b n).dstCap = s.dstCap := rfl

@[simp] theorem State.spoil_rlen (s : State) (b : Buffer) (n : Nat) :
    (s.spoil b n).rlen = s.rlen := rfl

@[simp] theorem State.spoil_sdata (s : State) (b : Buffer) (n : Nat) :
    (s.spoil b n).sdata = s.sdata := rfl

@[simp] theorem State.spoil_status (s : State) (b : Buffer) (n : Nat) :
    (s.spoil b n).status = s.status := rfl

@[simp] theorem State.spoil_svalid (s : State) (b : Buffer) (n : Nat) :
    (s.spoil b n).svalid = s.svalid := rfl

@[simp] theorem State.spoil_iter (s : State) (b : Buffer) (n : Nat) :
    (s.spoil b n).iter = s.iter := rfl

@[simp] theorem State.spoil_job (s : State) (b : Buffer) (n : Nat) :
    (s.spoil b n).job = s.job := rfl

@[simp] theorem State.spoil_mem (s : State) (b : Buffer) (n : Nat) :
    (s.spoil b n).mem = s.mem.spoil s.free (s.addr b 0) n := rfl

@[simp] theorem State.spoil_place (s : State) (b : Buffer) (n : Nat) :
    (s.spoil b n).place = s.place := rfl

@[simp] theorem State.spoil_host (s : State) (b : Buffer) (n : Nat) :
    (s.spoil b n).host = s.host := rfl

@[simp] theorem State.spoil_hostData (s : State) (b : Buffer) (n : Nat) :
    (s.spoil b n).hostData = s.hostData := rfl

@[simp] theorem State.spoil_free (s : State) (b : Buffer) (n : Nat) :
    (s.spoil b n).free = s.free + 1 := rfl

@[simp] theorem State.spoil_specified (s : State) (b : Buffer) (n : Nat) :
    (s.spoil b n).specified = s.specified := rfl

/-! The fields of `yieldByte`. -/

@[simp] theorem State.yieldByte_cfg (s : State) (b : Byte) :
    (s.yieldByte b).cfg = s.cfg := rfl

@[simp] theorem State.yieldByte_argLen (s : State) (b : Byte) :
    (s.yieldByte b).argLen = s.argLen := rfl

@[simp] theorem State.yieldByte_dstCap (s : State) (b : Byte) :
    (s.yieldByte b).dstCap = s.dstCap := rfl

@[simp] theorem State.yieldByte_rlen (s : State) (b : Byte) :
    (s.yieldByte b).rlen = s.rlen := rfl

@[simp] theorem State.yieldByte_sdata (s : State) (b : Byte) :
    (s.yieldByte b).sdata = b := rfl

@[simp] theorem State.yieldByte_status (s : State) (b : Byte) :
    (s.yieldByte b).status = 0 := rfl

@[simp] theorem State.yieldByte_svalid (s : State) (b : Byte) :
    (s.yieldByte b).svalid = true := rfl

@[simp] theorem State.yieldByte_iter (s : State) (b : Byte) :
    (s.yieldByte b).iter = s.iter := rfl

@[simp] theorem State.yieldByte_job (s : State) (b : Byte) :
    (s.yieldByte b).job = s.job := rfl

@[simp] theorem State.yieldByte_mem (s : State) (b : Byte) :
    (s.yieldByte b).mem = s.mem := rfl

@[simp] theorem State.yieldByte_place (s : State) (b : Byte) :
    (s.yieldByte b).place = s.place := rfl

@[simp] theorem State.yieldByte_host (s : State) (b : Byte) :
    (s.yieldByte b).host = s.host := rfl

@[simp] theorem State.yieldByte_hostData (s : State) (b : Byte) :
    (s.yieldByte b).hostData = s.hostData := rfl

@[simp] theorem State.yieldByte_free (s : State) (b : Byte) :
    (s.yieldByte b).free = s.free := rfl

@[simp] theorem State.yieldByte_specified (s : State) (b : Byte) :
    (s.yieldByte b).specified = { s.specified with sdata := true, svalid := true, status := true } := rfl

/-! The fields of `yieldNothing`. -/

@[simp] theorem State.yieldNothing_cfg (s : State) :
    (s.yieldNothing).cfg = s.cfg := rfl

@[simp] theorem State.yieldNothing_argLen (s : State) :
    (s.yieldNothing).argLen = s.argLen := rfl

@[simp] theorem State.yieldNothing_dstCap (s : State) :
    (s.yieldNothing).dstCap = s.dstCap := rfl

@[simp] theorem State.yieldNothing_rlen (s : State) :
    (s.yieldNothing).rlen = s.rlen := rfl

@[simp] theorem State.yieldNothing_sdata (s : State) :
    (s.yieldNothing).sdata = Config.freeByte s.free 0 := rfl

@[simp] theorem State.yieldNothing_status (s : State) :
    (s.yieldNothing).status = 0 := rfl

@[simp] theorem State.yieldNothing_svalid (s : State) :
    (s.yieldNothing).svalid = false := rfl

@[simp] theorem State.yieldNothing_iter (s : State) :
    (s.yieldNothing).iter = s.iter := rfl

@[simp] theorem State.yieldNothing_job (s : State) :
    (s.yieldNothing).job = s.job := rfl

@[simp] theorem State.yieldNothing_mem (s : State) :
    (s.yieldNothing).mem = s.mem := rfl

@[simp] theorem State.yieldNothing_place (s : State) :
    (s.yieldNothing).place = s.place := rfl

@[simp] theorem State.yieldNothing_host (s : State) :
    (s.yieldNothing).host = s.host := rfl

@[simp] theorem State.yieldNothing_hostData (s : State) :
    (s.yieldNothing).hostData = s.hostData := rfl

@[simp] theorem State.yieldNothing_free (s : State) :
    (s.yieldNothing).free = s.free + 1 := rfl

@[simp] theorem State.yieldNothing_specified (s : State) :
    (s.yieldNothing).specified = { s.specified with sdata := false, svalid := true, status := true } := rfl

/-! The fields of `withCursors`. -/

@[simp] theorem State.withCursors_cfg (s : State) (j : Job) (c : Cursors) (stage : DecodeAt) :
    (s.withCursors j c stage).cfg = s.cfg := rfl

@[simp] theorem State.withCursors_argLen (s : State) (j : Job) (c : Cursors) (stage : DecodeAt) :
    (s.withCursors j c stage).argLen = s.argLen := rfl

@[simp] theorem State.withCursors_dstCap (s : State) (j : Job) (c : Cursors) (stage : DecodeAt) :
    (s.withCursors j c stage).dstCap = s.dstCap := rfl

@[simp] theorem State.withCursors_rlen (s : State) (j : Job) (c : Cursors) (stage : DecodeAt) :
    (s.withCursors j c stage).rlen = s.rlen := rfl

@[simp] theorem State.withCursors_sdata (s : State) (j : Job) (c : Cursors) (stage : DecodeAt) :
    (s.withCursors j c stage).sdata = s.sdata := rfl

@[simp] theorem State.withCursors_status (s : State) (j : Job) (c : Cursors) (stage : DecodeAt) :
    (s.withCursors j c stage).status = s.status := rfl

@[simp] theorem State.withCursors_svalid (s : State) (j : Job) (c : Cursors) (stage : DecodeAt) :
    (s.withCursors j c stage).svalid = s.svalid := rfl

@[simp] theorem State.withCursors_iter (s : State) (j : Job) (c : Cursors) (stage : DecodeAt) :
    (s.withCursors j c stage).iter = s.iter := rfl

@[simp] theorem State.withCursors_job (s : State) (j : Job) (c : Cursors) (stage : DecodeAt) :
    (s.withCursors j c stage).job = some { j with r := c.r, w := c.w, stage := stage } := rfl

@[simp] theorem State.withCursors_mem (s : State) (j : Job) (c : Cursors) (stage : DecodeAt) :
    (s.withCursors j c stage).mem = c.mem := rfl

@[simp] theorem State.withCursors_place (s : State) (j : Job) (c : Cursors) (stage : DecodeAt) :
    (s.withCursors j c stage).place = s.place := rfl

@[simp] theorem State.withCursors_host (s : State) (j : Job) (c : Cursors) (stage : DecodeAt) :
    (s.withCursors j c stage).host = s.host := rfl

@[simp] theorem State.withCursors_hostData (s : State) (j : Job) (c : Cursors) (stage : DecodeAt) :
    (s.withCursors j c stage).hostData = s.hostData := rfl

@[simp] theorem State.withCursors_free (s : State) (j : Job) (c : Cursors) (stage : DecodeAt) :
    (s.withCursors j c stage).free = s.free := rfl

@[simp] theorem State.withCursors_specified (s : State) (j : Job) (c : Cursors) (stage : DecodeAt) :
    (s.withCursors j c stage).specified = s.specified := rfl

/-! The fields of `startDecode`. -/

@[simp] theorem State.startDecode_cfg (s : State) (form : DecodeForm) :
    (s.startDecode form).cfg = s.cfg := rfl

@[simp] theorem State.startDecode_argLen (s : State) (form : DecodeForm) :
    (s.startDecode form).argLen = s.argLen := rfl

@[simp] theorem State.startDecode_dstCap (s : State) (form : DecodeForm) :
    (s.startDecode form).dstCap = s.dstCap := rfl

@[simp] theorem State.startDecode_rlen (s : State) (form : DecodeForm) :
    (s.startDecode form).rlen = s.rlen := rfl

@[simp] theorem State.startDecode_sdata (s : State) (form : DecodeForm) :
    (s.startDecode form).sdata = s.sdata := rfl

@[simp] theorem State.startDecode_status (s : State) (form : DecodeForm) :
    (s.startDecode form).status = s.status := rfl

@[simp] theorem State.startDecode_svalid (s : State) (form : DecodeForm) :
    (s.startDecode form).svalid = s.svalid := rfl

@[simp] theorem State.startDecode_iter (s : State) (form : DecodeForm) :
    (s.startDecode form).iter = s.iter := rfl

@[simp] theorem State.startDecode_job (s : State) (form : DecodeForm) :
    (s.startDecode form).job = some (s.newJob form) := rfl

@[simp] theorem State.startDecode_mem (s : State) (form : DecodeForm) :
    (s.startDecode form).mem = s.mem := rfl

@[simp] theorem State.startDecode_place (s : State) (form : DecodeForm) :
    (s.startDecode form).place = s.place := rfl

@[simp] theorem State.startDecode_host (s : State) (form : DecodeForm) :
    (s.startDecode form).host = s.host := rfl

@[simp] theorem State.startDecode_hostData (s : State) (form : DecodeForm) :
    (s.startDecode form).hostData = s.hostData := rfl

@[simp] theorem State.startDecode_free (s : State) (form : DecodeForm) :
    (s.startDecode form).free = s.free := rfl

@[simp] theorem State.startDecode_specified (s : State) (form : DecodeForm) :
    (s.startDecode form).specified = s.specified := rfl

/-! The fields of `runOut`. -/

@[simp] theorem State.runOut_cfg (s : State) (j : Job) :
    (s.runOut j).cfg = s.cfg := rfl

@[simp] theorem State.runOut_argLen (s : State) (j : Job) :
    (s.runOut j).argLen = s.argLen := rfl

@[simp] theorem State.runOut_dstCap (s : State) (j : Job) :
    (s.runOut j).dstCap = s.dstCap := rfl

@[simp] theorem State.runOut_rlen (s : State) (j : Job) :
    (s.runOut j).rlen = s.rlen := rfl

@[simp] theorem State.runOut_sdata (s : State) (j : Job) :
    (s.runOut j).sdata = s.sdata := rfl

@[simp] theorem State.runOut_status (s : State) (j : Job) :
    (s.runOut j).status = s.status := rfl

@[simp] theorem State.runOut_svalid (s : State) (j : Job) :
    (s.runOut j).svalid = s.svalid := rfl

@[simp] theorem State.runOut_iter (s : State) (j : Job) :
    (s.runOut j).iter = s.iter := rfl

@[simp] theorem State.runOut_job (s : State) (j : Job) :
    (s.runOut j).job = some { j with stage := .ended .truncatedFrame } := rfl

@[simp] theorem State.runOut_mem (s : State) (j : Job) :
    (s.runOut j).mem = s.mem := rfl

@[simp] theorem State.runOut_place (s : State) (j : Job) :
    (s.runOut j).place = s.place := rfl

@[simp] theorem State.runOut_host (s : State) (j : Job) :
    (s.runOut j).host = s.host := rfl

@[simp] theorem State.runOut_hostData (s : State) (j : Job) :
    (s.runOut j).hostData = s.hostData := rfl

@[simp] theorem State.runOut_free (s : State) (j : Job) :
    (s.runOut j).free = s.free := rfl

@[simp] theorem State.runOut_specified (s : State) (j : Job) :
    (s.runOut j).specified = s.specified := rfl

/-! The fields of `leaveFailed`, which may change memory and the count of free values only. -/

@[simp] theorem State.leaveFailed_cfg (s : State) (b : Buffer) (n : Nat) :
    (s.leaveFailed b n).cfg = s.cfg := by unfold State.leaveFailed; split <;> rfl

@[simp] theorem State.leaveFailed_argLen (s : State) (b : Buffer) (n : Nat) :
    (s.leaveFailed b n).argLen = s.argLen := by unfold State.leaveFailed; split <;> rfl

@[simp] theorem State.leaveFailed_dstCap (s : State) (b : Buffer) (n : Nat) :
    (s.leaveFailed b n).dstCap = s.dstCap := by unfold State.leaveFailed; split <;> rfl

@[simp] theorem State.leaveFailed_rlen (s : State) (b : Buffer) (n : Nat) :
    (s.leaveFailed b n).rlen = s.rlen := by unfold State.leaveFailed; split <;> rfl

@[simp] theorem State.leaveFailed_sdata (s : State) (b : Buffer) (n : Nat) :
    (s.leaveFailed b n).sdata = s.sdata := by unfold State.leaveFailed; split <;> rfl

@[simp] theorem State.leaveFailed_status (s : State) (b : Buffer) (n : Nat) :
    (s.leaveFailed b n).status = s.status := by unfold State.leaveFailed; split <;> rfl

@[simp] theorem State.leaveFailed_svalid (s : State) (b : Buffer) (n : Nat) :
    (s.leaveFailed b n).svalid = s.svalid := by unfold State.leaveFailed; split <;> rfl

@[simp] theorem State.leaveFailed_iter (s : State) (b : Buffer) (n : Nat) :
    (s.leaveFailed b n).iter = s.iter := by unfold State.leaveFailed; split <;> rfl

@[simp] theorem State.leaveFailed_job (s : State) (b : Buffer) (n : Nat) :
    (s.leaveFailed b n).job = s.job := by unfold State.leaveFailed; split <;> rfl

@[simp] theorem State.leaveFailed_place (s : State) (b : Buffer) (n : Nat) :
    (s.leaveFailed b n).place = s.place := by unfold State.leaveFailed; split <;> rfl

@[simp] theorem State.leaveFailed_host (s : State) (b : Buffer) (n : Nat) :
    (s.leaveFailed b n).host = s.host := by unfold State.leaveFailed; split <;> rfl

@[simp] theorem State.leaveFailed_hostData (s : State) (b : Buffer) (n : Nat) :
    (s.leaveFailed b n).hostData = s.hostData := by unfold State.leaveFailed; split <;> rfl

@[simp] theorem State.leaveFailed_specified (s : State) (b : Buffer) (n : Nat) :
    (s.leaveFailed b n).specified = s.specified := by unfold State.leaveFailed; split <;> rfl

/-! The fields of `finishDecode`. -/

@[simp] theorem State.finishDecode_cfg (s : State) (j : Job) (code : StatusCode) :
    (s.finishDecode j code).cfg = s.cfg := by cases code <;> simp [State.finishDecode]

@[simp] theorem State.finishDecode_argLen (s : State) (j : Job) (code : StatusCode) :
    (s.finishDecode j code).argLen = s.argLen := by cases code <;> simp [State.finishDecode]

@[simp] theorem State.finishDecode_dstCap (s : State) (j : Job) (code : StatusCode) :
    (s.finishDecode j code).dstCap = s.dstCap := by cases code <;> simp [State.finishDecode]

@[simp] theorem State.finishDecode_sdata (s : State) (j : Job) (code : StatusCode) :
    (s.finishDecode j code).sdata = s.sdata := by cases code <;> simp [State.finishDecode]

@[simp] theorem State.finishDecode_svalid (s : State) (j : Job) (code : StatusCode) :
    (s.finishDecode j code).svalid = s.svalid := by cases code <;> simp [State.finishDecode]

@[simp] theorem State.finishDecode_iter (s : State) (j : Job) (code : StatusCode) :
    (s.finishDecode j code).iter = s.iter := by cases code <;> simp [State.finishDecode]

@[simp] theorem State.finishDecode_place (s : State) (j : Job) (code : StatusCode) :
    (s.finishDecode j code).place = s.place := by cases code <;> simp [State.finishDecode]

@[simp] theorem State.finishDecode_host (s : State) (j : Job) (code : StatusCode) :
    (s.finishDecode j code).host = s.host := by cases code <;> simp [State.finishDecode]

@[simp] theorem State.finishDecode_hostData (s : State) (j : Job) (code : StatusCode) :
    (s.finishDecode j code).hostData = s.hostData := by cases code <;> simp [State.finishDecode]

@[simp] theorem State.finishDecode_job (s : State) (j : Job) (code : StatusCode) :
    (s.finishDecode j code).job = none := by cases code <;> simp [State.finishDecode]

@[simp] theorem State.finishDecode_status (s : State) (j : Job) (code : StatusCode) :
    (s.finishDecode j code).status = code.bits := by
  cases code <;> simp [State.finishDecode]
  rfl

/-! The fields of `resetRegisters` that the spec fixes or leaves alone. -/

@[simp] theorem State.resetRegisters_cfg (s : State) : s.resetRegisters.cfg = s.cfg := rfl

@[simp] theorem State.resetRegisters_mem (s : State) : s.resetRegisters.mem = s.mem := rfl

@[simp] theorem State.resetRegisters_place (s : State) : s.resetRegisters.place = s.place := rfl

@[simp] theorem State.resetRegisters_host (s : State) : s.resetRegisters.host = s.host := rfl

@[simp] theorem State.resetRegisters_hostData (s : State) : s.resetRegisters.hostData = s.hostData := rfl

@[simp] theorem State.resetRegisters_job (s : State) : s.resetRegisters.job = none := rfl

@[simp] theorem State.resetRegisters_specified (s : State) : s.resetRegisters.specified = Marks.unset := rfl

@[simp] theorem State.resetRegisters_phase (s : State) : s.resetRegisters.iter.phase = .done := rfl

end Sys2Proof.Machine
end

