-- ==== Sys2Proof/Laws/Step.lean ====
section
/-! SUPPORT. What a step can do, said once: each row inside a decode is one advance of the engine, and every next state
comes from one of the named operations. -/

namespace Sys2Proof.Machine

/-- Every row of the length-byte position is the shared operation at its own word. -/
theorem exec_lengthByteRow (i : Instr) (h : i.position = .lengthByte) (s : State) : exec i s = lengthByteRow i.word s := by
  cases i <;> first | rfl | cases h

theorem decodeLengthByte_shape : ∀ b : Byte, (decodeLengthByte b).word = b ∧ (decodeLengthByte b).position = .lengthByte := by
  decide

theorem exec_decodeLengthByte (b : Byte) (s : State) : exec (decodeLengthByte b) s = lengthByteRow b s := by
  rw [exec_lengthByteRow _ (decodeLengthByte_shape b).2, (decodeLengthByte_shape b).1]

theorem exec_decodeFollow (b : Byte) (s : State) :
    exec (decodeFollow b) s = followRow (if b = 0x00 then State.takeTerminator else State.takeImpliedZero) s := by
  unfold decodeFollow
  by_cases h : b = 0x00
  · simp only [if_pos h]; rfl
  · simp only [if_neg h]; rfl

theorem exec_decodeStatus (code : StatusCode) (s : State) : exec (decodeStatus code.bits) s = statusRow code s := by
  cases code <;> rfl

/-- Inside a decode the engine never stops: what it meets is always the row of its position. -/
theorem engineStep_eq {s : State} {j : Job} (h : s.job = some j) : engineStep j s = .next (s.advance j) := by
  unfold engineStep fetchWire State.advance
  rcases hs : j.stage with _ | _ | code
  · by_cases hr : j.r < j.len
    · simp only [if_pos hr, exec_decodeLengthByte, lengthByteRow, h, hs, true_and]
    · simp only [if_neg hr]
  · by_cases hr : j.r < j.len
    · simp only [if_pos hr, exec_decodeFollow, followRow, h, hs, true_and]
      split <;> rfl
    · simp only [if_neg hr]
  · simp only [exec_decodeStatus, statusRow, h, hs, if_true]

theorem step_reset {s : State} {rest : List HostAction} (h : s.host = .reset :: rest) :
    step s = .next ({ s with host := rest }).applyReset := by
  unfold step State.resetPending hostTurn
  rw [h]; rfl

theorem step_engine {s : State} {j : Job} (h : s.job = some j) (hr : s.resetPending = false) :
    step s = .next (s.advance j) := by
  unfold step
  rw [hr, h]
  exact engineStep_eq h

theorem step_idle {s : State} (h : s.job = none) : step s = hostTurn s := by
  unfold step
  rw [h]
  split <;> rfl

theorem guarded_next {o : Option Refusal} {s t : State} (h : guarded o s = .next t) : o = none ∧ t = s := by
  cases o with
  | none => cases h; exact ⟨rfl, rfl⟩
  | some r => cases h

/-- Everything a row can do. -/
theorem exec_next {i : Instr} {s t : State} (h : exec i s = .next t) :
    (i = .len ∧ s.lenRefusal = none ∧ t = s.postOk (maxEncodedLen s.argLen)) ∨
    (i = .enc ∧ s.encRefusal = none ∧
      t = s.finishEncode (encodeFrame s.mem (s.addr .src 0) (s.addr .dst 0) s.argLen s.dstCap)) ∨
    (i = .dec ∧ s.decRefusal = none ∧ t = s.decodeAll .dec) ∨
    (i = .deci ∧ s.deciRefusal = none ∧ t = s.decodeAll .deci) ∨
    (i = .encsStart ∧ s.encsStartRefusal = none ∧
      t = ({ s with iter := ⟨s.argLen, 0, 0, .fin, .head⟩ }).postStatus .ok) ∨
    (i = .encsNext ∧ s.encsNextRefusal = none ∧ t = s.nextByte) ∨
    (∃ j, s.job = some j ∧
      ((i.position = .lengthByte ∧ j.stage = .lengthByte ∧ j.r < j.len ∧ t = s.takeLengthByte j i.word) ∨
       (i = .fpTerm ∧ j.stage = .follow ∧ j.r < j.len ∧ t = s.takeTerminator j) ∨
       ((∃ b, i = .fpImpliedZero b) ∧ j.stage = .follow ∧ j.r < j.len ∧ t = s.takeImpliedZero j) ∨
       (∃ code, j.stage = .ended code ∧ i = decodeStatus code.bits ∧ t = s.finishDecode j code))) := by
  by_cases hp : i.position = .lengthByte
  · rw [exec_lengthByteRow i hp] at h
    unfold lengthByteRow at h
    split at h
    · split at h
      · cases h
        exact .inr <| .inr <| .inr <| .inr <| .inr <| .inr ⟨_, ‹_›, .inl ⟨hp, by simp_all⟩⟩
      · cases h
    · cases h
  · have hfollow : ∀ f, followRow f s = .next t →
        ∃ j, s.job = some j ∧ j.stage = .follow ∧ j.r < j.len ∧ t = f s j := by
      intro f h
      unfold followRow at h
      split at h
      · split at h
        · cases h; exact ⟨_, ‹_›, by simp_all⟩
        · cases h
      · cases h
    have hstatus : ∀ code, statusRow code s = .next t →
        ∃ j, s.job = some j ∧ j.stage = .ended code ∧ t = s.finishDecode j code := by
      intro code h
      unfold statusRow at h
      split at h
      · split at h
        · cases h; exact ⟨_, ‹_›, by simp_all⟩
        · cases h
      · cases h
    cases i <;> first | (exact absurd rfl hp) | cases h | skip
    case len => exact .inl ⟨rfl, guarded_next h⟩
    case enc => exact .inr <| .inl ⟨rfl, guarded_next h⟩
    case dec => exact .inr <| .inr <| .inl ⟨rfl, guarded_next h⟩
    case deci => exact .inr <| .inr <| .inr <| .inl ⟨rfl, guarded_next h⟩
    case encsStart => exact .inr <| .inr <| .inr <| .inr <| .inl ⟨rfl, guarded_next h⟩
    case encsNext => exact .inr <| .inr <| .inr <| .inr <| .inr <| .inl ⟨rfl, guarded_next h⟩
    case fpTerm =>
      obtain ⟨j, h1, h2, h3, h4⟩ := hfollow _ h
      exact .inr <| .inr <| .inr <| .inr <| .inr <| .inr ⟨j, h1, .inr <| .inl ⟨rfl, h2, h3, h4⟩⟩
    case fpImpliedZero b =>
      obtain ⟨j, h1, h2, h3, h4⟩ := hfollow _ h
      exact .inr <| .inr <| .inr <| .inr <| .inr <| .inr ⟨j, h1, .inr <| .inr <| .inl ⟨⟨b, rfl⟩, h2, h3, h4⟩⟩
    all_goals
      obtain ⟨j, h1, h2, h3⟩ := hstatus _ h
      exact .inr <| .inr <| .inr <| .inr <| .inr <| .inr ⟨j, h1, .inr <| .inr <| .inr ⟨_, h2, rfl, h3⟩⟩

/-- Everything a write of `CMD` that is to be taken step by step can do (log 1). -/
theorem issueByBlock_next {v : Nat} {s t : State} (h : issueByBlock v s = .next t) :
    (∃ i, fetchCommand v = some i ∧ exec i s = .next t) ∨
    (∃ form, fetchCommand v = some (match form with | .dec => .dec | .deci => .deci) ∧ t = s.startDecode form) := by
  unfold issueByBlock at h
  split at h
  · exact .inr ⟨.dec, ‹_›, (guarded_next h).2⟩
  · exact .inr ⟨.deci, ‹_›, (guarded_next h).2⟩
  · exact .inl ⟨_, ‹_›, h⟩
  · cases h

/-- Everything a reset during a command can do (U13). -/
theorem resetDuring_next {v : Nat} {s t : State} (h : resetDuring v s = .next t) :
    t = s.resetRegisters ∨ t = s.abandon .dst s.dstCap ∨ t = s.abandon .buf s.argLen := by
  unfold resetDuring at h
  split at h <;> first | contradiction | skip
  · exact .inl (guarded_next h).2
  · exact .inr <| .inl (guarded_next h).2
  · exact .inr <| .inl (guarded_next h).2
  · exact .inr <| .inr (guarded_next h).2
  · exact .inl (guarded_next h).2
  · exact .inl (guarded_next h).2

/-- Everything an action of the host can do. -/
theorem hostStep_next {a : HostAction} {s t : State} (h : hostStep a s = .next t) :
    (∃ v, a = .writeReg .argLen v ∧ v < 2 ^ s.cfg.width ∧
      t = { s with argLen := v, specified := { s.specified with argLen := true } }) ∨
    (∃ v, a = .writeReg .dstCap v ∧ v < 2 ^ s.cfg.width ∧
      t = { s with dstCap := v, specified := { s.specified with dstCap := true } }) ∨
    (∃ v i, (a = .writeReg .cmd v ∨ a = .issueByBlock v) ∧ fetchCommand v = some i ∧ exec i s = .next t) ∨
    (∃ v form, a = .issueByBlock v ∧
      fetchCommand v = some (match form with | .dec => .dec | .deci => .deci) ∧ t = s.startDecode form) ∨
    (((∃ reg, a = .readReg reg) ∨ ∃ b i, a = .peek b i) ∧ ∃ v, t = { s with hostData := v }) ∨
    (∃ b i v, a = .poke b i v ∧ t = { s with mem := s.mem.write (s.addr b i) v }) ∨
    (∃ b base, a = .place b base ∧ t = { s with place := s.place.move b base }) ∨
    (a = .reset ∧ t = s.applyReset) ∨
    (∃ v, a = .resetDuring v ∧ (t = s.resetRegisters ∨ t = s.abandon .dst s.dstCap ∨ t = s.abandon .buf s.argLen)) := by
  cases a with
  | writeReg reg v =>
    cases reg <;> simp only [hostStep, hostWrite] at h <;> first | contradiction | skip
    · split at h
      · cases h; exact .inl ⟨v, rfl, ‹_›, rfl⟩
      · cases h
    · split at h
      · cases h; exact .inr <| .inl ⟨v, rfl, ‹_›, rfl⟩
      · cases h
    · split at h
      · exact .inr <| .inr <| .inl ⟨v, _, .inl rfl, ‹_›, h⟩
      · cases h
  | readReg reg =>
    refine .inr <| .inr <| .inr <| .inr <| .inl ⟨.inl ⟨reg, rfl⟩, ?_⟩
    cases reg <;> cases h <;> exact ⟨_, rfl⟩
  | poke b i v => cases h; exact .inr <| .inr <| .inr <| .inr <| .inr <| .inl ⟨b, i, v, rfl, rfl⟩
  | peek b i =>
    cases h; exact .inr <| .inr <| .inr <| .inr <| .inl ⟨.inr ⟨b, i, rfl⟩, _, rfl⟩
  | place b base => cases h; exact .inr <| .inr <| .inr <| .inr <| .inr <| .inr <| .inl ⟨b, base, rfl, rfl⟩
  | issueByBlock v =>
    rcases issueByBlock_next h with ⟨i, h1, h2⟩ | ⟨form, h1, h2⟩
    · exact .inr <| .inr <| .inl ⟨v, i, .inr rfl, h1, h2⟩
    · exact .inr <| .inr <| .inr <| .inl ⟨v, form, rfl, h1, h2⟩
  | reset => cases h; exact .inr <| .inr <| .inr <| .inr <| .inr <| .inr <| .inr <| .inl ⟨rfl, rfl⟩
  | resetDuring v =>
    exact .inr <| .inr <| .inr <| .inr <| .inr <| .inr <| .inr <| .inr ⟨v, rfl, resetDuring_next h⟩

/-- Everything a step can do: wait, advance a decode in progress, or take the host's next action, for which only a reset
finds a decode in progress. -/
theorem step_next {s t : State} (h : step s = .next t) :
    (s.job = none ∧ s.host = [] ∧ t = s) ∨
    (∃ j, s.job = some j ∧ s.resetPending = false ∧ t = s.advance j) ∨
    (∃ a rest, s.host = a :: rest ∧ (s.job = none ∨ a = .reset) ∧ hostStep a { s with host := rest } = .next t) := by
  rcases hr : s.resetPending with _ | _
  · rcases Option.eq_none_or_eq_some s.job with hj | ⟨j, hj⟩
    · rw [step_idle hj] at h
      unfold hostTurn at h
      split at h
      · cases h; exact .inl ⟨hj, ‹_›, rfl⟩
      · exact .inr <| .inr ⟨_, _, ‹_›, .inl hj, h⟩
    · rw [step_engine hj hr] at h
      cases h
      exact .inr <| .inl ⟨j, hj, rfl, rfl⟩
  · unfold State.resetPending at hr
    split at hr
    · rw [step_reset ‹_›] at h
      exact .inr <| .inr ⟨_, _, ‹_›, .inr rfl, h⟩
    · cases hr

end Sys2Proof.Machine
end

