-- ==== Sys2Proof/Laws/Advance.lean ====
section
/-! SUPPORT. What one step of a decode can do to memory and to its cursors, wherever its buffers lie. -/

namespace Sys2Proof.Machine

theorem Memory.SameOutside.refl (m : Memory) (base n : Nat) : m.SameOutside m base n := fun _ _ => rfl

theorem Memory.SameOutside.mono {m m' : Memory} {base n base' n' : Nat} (h : m.SameOutside m' base n)
    (hb : base' ≤ base) (hn : base + n ≤ base' + n') : m.SameOutside m' base' n' :=
  fun a ha => h a (by omega)

theorem Memory.SameOutside.trans {m m' m'' : Memory} {base n : Nat} (h : m.SameOutside m' base n)
    (h' : m'.SameOutside m'' base n) : m.SameOutside m'' base n := fun a ha => (h' a ha).trans (h a ha)

/-- What a loop of the decoder that starts at `c` and stops at `c'` has done: it has stored the bytes between the two
write cursors, within the ends of both buffers. -/
structure Cursors.Moves (src dst len cap : Nat) (c c' : Cursors) : Prop where
  wf : c.mem.wf = true → c'.mem.wf = true
  outside : c.mem.wf = true → c.mem.SameOutside c'.mem (dst + c.w) (c'.w - c.w)
  reads : c.r ≤ c'.r
  writes : c.w ≤ c'.w
  readEnd : c.r ≤ len → c'.r ≤ len
  writeEnd : c'.w ≤ max c.w cap

theorem Cursors.Moves.refl (src dst len cap : Nat) (c : Cursors) : Cursors.Moves src dst len cap c c :=
  ⟨id, fun _ => .refl _ _ _, Nat.le_refl _, Nat.le_refl _, id, Nat.le_max_left _ _⟩

theorem Cursors.Moves.trans {src dst len cap : Nat} {c c' c'' : Cursors} (h : Cursors.Moves src dst len cap c c')
    (h' : Cursors.Moves src dst len cap c' c'') : Cursors.Moves src dst len cap c c'' := by
  obtain ⟨h1, h2, h3, h4, h6, h7⟩ := h
  obtain ⟨g1, g2, g3, g4, g6, g7⟩ := h'
  refine ⟨fun h => g1 (h1 h), fun h => ?_, by omega, by omega, fun h => g6 (h6 h), by omega⟩
  exact (Memory.SameOutside.mono (h2 h) (by omega) (by omega)).trans
    (Memory.SameOutside.mono (g2 (h1 h)) (by omega) (by omega))

/-- The data bytes of a block, whatever the buffers: the copy goes on behind all of them, or it is a failure; at most one
byte is written for each byte consumed. -/
theorem copyBlock_moves (src dst len cap : Nat) (k : Nat) (c : Cursors) :
    (∃ c', copyBlock src dst len cap k c = .go c' ∧ c'.r = c.r + k ∧ c'.w = c.w + k ∧ Cursors.Moves src dst len cap c c') ∨
    (∃ c' code, copyBlock src dst len cap k c = .raised c' code ∧ code ≠ .ok ∧ c'.w + c.r ≤ c'.r + c.w ∧
      Cursors.Moves src dst len cap c c') := by
  induction k generalizing c with
  | zero => exact .inl ⟨c, rfl, rfl, rfl, .refl _ _ _ _ _⟩
  | succ k ih =>
    unfold copyBlock
    by_cases h : len ≤ c.r
    · rw [if_pos h]
      exact .inr ⟨c, _, rfl, nofun, by omega, .refl _ _ _ _ _⟩
    rw [if_neg h]
    by_cases hf : cap ≤ c.w
    · rw [putByte_full _ _ (by exact hf)]
      refine .inr ⟨_, _, rfl, nofun, by simp; omega, id, fun _ => .refl _ _ _, ?_, ?_, ?_, ?_⟩ <;>
        simp <;> omega
    rw [putByte_room _ _ (by simpa using hf)]
    have hstep : Cursors.Moves src dst len cap c ⟨c.mem.write (dst + c.w) (c.mem.read (src + c.r)), c.r + 1, c.w + 1⟩ := by
      refine ⟨fun h => Memory.write_wf h _ _, fun h a ha => Memory.read_write_other h _ ?_, ?_, ?_, ?_, ?_⟩ <;>
        simp at * <;> omega
    rcases ih ⟨c.mem.write (dst + c.w) (c.mem.read (src + c.r)), c.r + 1, c.w + 1⟩ with
      ⟨c', h1, h2, h3, h4⟩ | ⟨c', code, h1, h2, h3, h4⟩
    · refine .inl ⟨c', h1, ?_, ?_, hstep.trans h4⟩ <;> simp at * <;> omega
    · exact .inr ⟨c', code, h1, h2, by simp at h3; omega, hstep.trans h4⟩

/-- The registers and the memory a decode leaves at its end. -/
theorem finishDecode_fields (s : State) (j : Job) (code : StatusCode) :
    (s.finishDecode j code).cfg = s.cfg ∧ (s.finishDecode j code).argLen = s.argLen ∧
    (s.finishDecode j code).dstCap = s.dstCap ∧ (s.finishDecode j code).iter = s.iter ∧
    (s.finishDecode j code).sdata = s.sdata ∧ (s.finishDecode j code).svalid = s.svalid ∧
    (s.finishDecode j code).place = s.place ∧ (s.finishDecode j code).host = s.host ∧
    (s.finishDecode j code).hostData = s.hostData ∧ (s.finishDecode j code).status = code.bits ∧
    (s.finishDecode j code).specified =
      { s.specified with status := true, rlen := (match code with | .ok => true | _ => false) } := by
  cases code <;> refine ⟨?_, ?_, ?_, ?_, ?_, ?_, ?_, ?_, ?_, rfl, ?_⟩ <;>
    simp only [State.finishDecode, State.leaveFailed, State.postOk, State.postFailure, State.spoil] <;>
    (try split) <;> rfl

/-- A step inside a decode, with the cursors it leaves: it is still a decode of the same operands, and all it has done to
memory is between the two write cursors. -/
theorem advance_moves (s : State) (j : Job) (hne : ∀ code, j.stage ≠ .ended code) :
    ∃ c stage, s.advance j = s.withCursors j c stage ∧
      Cursors.Moves (j.srcBase s) (j.dstBase s) j.len j.cap ⟨s.mem, j.r, j.w⟩ c := by
  have hread : j.r < j.len →
      Cursors.Moves (j.srcBase s) (j.dstBase s) j.len j.cap ⟨s.mem, j.r, j.w⟩ ⟨s.mem, j.r + 1, j.w⟩ := fun h =>
    ⟨id, fun _ => .refl _ _ _, Nat.le_succ _, Nat.le_refl _, fun _ => h, Nat.le_max_left _ _⟩
  unfold State.advance
  rcases hs : j.stage with _ | _ | code
  · by_cases hr : j.r < j.len
    · simp only [if_pos hr, State.takeLengthByte]
      by_cases hc : j.byteAt s = 0
      · rw [if_pos hc]; exact ⟨_, _, rfl, hread hr⟩
      rw [if_neg hc]
      rcases copyBlock_moves (j.srcBase s) (j.dstBase s) j.len j.cap (dataCount (j.byteAt s)) ⟨s.mem, j.r + 1, j.w⟩ with
        ⟨c', h1, _, _, h4⟩ | ⟨c', code, h1, _, _, h3⟩
      · rw [h1]; exact ⟨_, _, rfl, (hread hr).trans h4⟩
      · rw [h1]; exact ⟨_, _, rfl, (hread hr).trans h3⟩
    · simp only [if_neg hr]; exact ⟨⟨s.mem, j.r, j.w⟩, _, rfl, .refl _ _ _ _ _⟩
  · by_cases hr : j.r < j.len
    · simp only [if_pos hr]
      by_cases hb : j.byteAt s = 0
      · rw [if_pos hb]; exact ⟨_, _, rfl, hread hr⟩
      rw [if_neg hb, State.takeImpliedZero]
      by_cases hw : j.w < j.cap
      · rw [putByte_room _ _ (by simpa using hw)]
        exact ⟨_, _, rfl, fun h => Memory.write_wf h _ _, fun h a ha => Memory.read_write_other h _ (by simp at ha ⊢; omega),
          Nat.le_refl _, Nat.le_succ _, id, Nat.le_trans hw (Nat.le_max_right _ _)⟩
      · rw [putByte_full _ _ (by simpa using hw)]; exact ⟨_, _, rfl, .refl _ _ _ _ _⟩
    · simp only [if_neg hr]; exact ⟨⟨s.mem, j.r, j.w⟩, _, rfl, .refl _ _ _ _ _⟩
  · exact absurd hs (hne code)

theorem Job.ordered_iff (j : Job) : j.ordered = true ↔ j.w ≤ j.r ∧ j.r ≤ j.len ∧
    (match j.stage with
     | .lengthByte => True
     | .follow => j.w < j.r
     | .ended code => code = .ok → j.w + 2 ≤ j.r) := by
  unfold Job.ordered
  rcases j.stage with _ | _ | code
  · simp
  · simp [and_assoc]
  · cases code <;> simp [and_assoc]

/-- A step inside a decode keeps the cursors ordered (R161, R168). -/
theorem advance_ordered (s : State) (j : Job) (h : j.ordered = true) : (s.advance j).cursorsOrdered = true := by
  obtain ⟨h1, h2, h3⟩ := (Job.ordered_iff j).mp h
  unfold State.advance
  rcases hs : j.stage with _ | _ | code <;> rw [hs] at h3 <;> simp only at h3 ⊢
  · by_cases hr : j.r < j.len
    · simp only [if_pos hr, State.takeLengthByte]
      by_cases hc : j.byteAt s = 0
      · rw [if_pos hc]; exact (Job.ordered_iff _).mpr ⟨by simp; omega, hr, nofun⟩
      rw [if_neg hc]
      have hc1 : 1 ≤ (j.byteAt s).toNat := by
        rcases Nat.eq_zero_or_pos (j.byteAt s).toNat with h0 | h0
        · exact absurd (BitVec.eq_of_toNat_eq (by simpa using h0)) hc
        · exact h0
      rcases copyBlock_moves (j.srcBase s) (j.dstBase s) j.len j.cap (dataCount (j.byteAt s)) ⟨s.mem, j.r + 1, j.w⟩ with
        ⟨c', e1, e2, e3, e4⟩ | ⟨c', code, e1, e2, e3, e4⟩
      · have e5 := e4.readEnd hr
        rw [e1]
        refine (Job.ordered_iff _).mpr ⟨?_, e5, ?_⟩
        · simp at e2 e3 ⊢; omega
        · simp only at e2 e3 ⊢
          split
          · trivial
          · omega
          · rename_i hx; split at hx <;> cases hx
      · have e5 := e4.readEnd hr
        rw [e1]
        exact (Job.ordered_iff _).mpr ⟨by simp at e3 ⊢; omega, e5, fun hx => absurd hx e2⟩
    · simp only [if_neg hr]; exact (Job.ordered_iff _).mpr ⟨h1, h2, nofun⟩
  · by_cases hr : j.r < j.len
    · simp only [if_pos hr]
      by_cases hb : j.byteAt s = 0
      · rw [if_pos hb]; exact (Job.ordered_iff _).mpr ⟨by simp; omega, hr, fun _ => by simp; omega⟩
      rw [if_neg hb, State.takeImpliedZero]
      by_cases hw : j.w < j.cap
      · rw [putByte_room _ _ (by simpa using hw)]
        exact (Job.ordered_iff _).mpr ⟨h3, h2, trivial⟩
      · rw [putByte_full _ _ (by simpa using hw)]
        exact (Job.ordered_iff _).mpr ⟨h1, h2, nofun⟩
    · simp only [if_neg hr]; exact (Job.ordered_iff _).mpr ⟨h1, h2, nofun⟩
  · unfold State.cursorsOrdered
    rw [State.finishDecode_job]

/-- What a property of the machine asks for to hold after a whole decode: it holds after the issue and every advance
keeps it. -/
theorem runDecode_keeps {P : State → Prop} (hP : ∀ s j, P s → s.job = some j → P (s.advance j)) (fuel : Nat) (s : State)
    (h : P s) : P (State.runDecode fuel s) := by
  induction fuel generalizing s with
  | zero => exact h
  | succ fuel ih =>
    unfold State.runDecode
    split
    · exact h
    · exact ih _ (hP s _ h ‹_›)

end Sys2Proof.Machine
end

