-- ==== Sys2Proof/Laws/DecodeRun.lean ====
section
/-! SUPPORT. The steps of a decode: a block's data, one step, the whole run to its end, against the reference decoder. -/

namespace Sys2Proof.Machine

theorem Job.Apart.unread {src dst len cap r w : Nat} (h : Job.Apart src dst len cap r w) {i : Nat} (hi : r < i)
    (hl : i < len) (hc : w < cap) : src + i ≠ dst + w := by
  rcases h with h | ⟨h, hw⟩
  · intro he
    exact rangesMeet_false.mp h (src + i) (by omega) (by omega) (by omega)
  · omega

/-- The data bytes of a block (R152, R155 (ii), R207): what the input still has of them is emitted, and where that fits
the destination, the copy goes on if the input had all of them and else raises TruncatedFrame at the input's end. -/
theorem copyBlock_spec {src dst len cap : Nat} (k : Nat) (c : Cursors) (hm : c.mem.wf = true) (hr : c.r ≤ len)
    (hw : c.w ≤ cap) (ha : Job.Apart src dst len cap c.r c.w) :
    let data := c.mem.slice (src + c.r) (min k (len - c.r))
    if c.w + data.length ≤ cap then
      copyBlock src dst len cap k c =
        if k ≤ len - c.r then .go ⟨c.mem.store (dst + c.w) data, c.r + k, c.w + k⟩
        else .raised ⟨c.mem.store (dst + c.w) data, len, c.w + (len - c.r)⟩ .truncatedFrame
    else ∃ r, r ≤ len ∧ c.r ≤ r ∧ copyBlock src dst len cap k c =
      .raised ⟨c.mem.store (dst + c.w) (data.take (cap - c.w)), r, cap⟩ .bufferTooSmall := by
  induction k generalizing c with
  | zero => simp [copyBlock, Memory.slice, Memory.store, hw]
  | succ k ih =>
    by_cases hend : len ≤ c.r
    · have h0 : len - c.r = 0 := by omega
      have hrl : c.r = len := by omega
      simp only [h0, Nat.min_zero, Memory.slice, List.length_nil, Nat.add_zero, if_pos hw, copyBlock, if_pos hend,
        Memory.store]
      rw [if_neg (by omega), ← hrl]
    · obtain ⟨d, hd⟩ : ∃ d, len - c.r = d + 1 := ⟨len - c.r - 1, by omega⟩
      have hmin : min (k + 1) (len - c.r) = min k (len - (c.r + 1)) + 1 := by omega
      simp only [hmin, Memory.slice, List.length_cons, Memory.slice_length]
      rw [copyBlock, if_neg hend]
      by_cases hfull : c.w < cap
      · rw [putByte_room dst _ (by simpa using hfull)]
        simp only [Flow.andThen]
        generalize hb : c.mem.read (src + c.r) = b
        have hsame : (c.mem.write (dst + c.w) b).slice (src + c.r + 1) (min k (len - (c.r + 1))) =
            c.mem.slice (src + c.r + 1) (min k (len - (c.r + 1))) :=
          Memory.slice_congr fun i hi => by
            apply Memory.read_write_other hm
            rw [show src + c.r + 1 + i = src + (c.r + 1 + i) by omega]
            exact ha.unread (by omega) (by omega) hfull
        have ha' : Job.Apart src dst len cap (c.r + 1) (c.w + 1) := by
          rcases ha with h | ⟨h, hw⟩
          · exact .inl h
          · exact .inr ⟨h, by omega⟩
        have := ih ⟨c.mem.write (dst + c.w) b, c.r + 1, c.w + 1⟩ (Memory.write_wf hm _ _) (by simp; omega)
          (by simp; omega) ha'
        simp only [← Nat.add_assoc, hsame, Memory.slice_length] at this
        by_cases hroom : c.w + 1 + min k (len - (c.r + 1)) ≤ cap
        · rw [if_pos hroom] at this
          rw [if_pos (by omega), this]
          by_cases hk : k ≤ len - (c.r + 1)
          · rw [if_pos hk, if_pos (by omega), Memory.store, Nat.add_assoc c.r, Nat.add_assoc c.w, Nat.add_comm 1 k]
          · rw [if_neg hk, if_neg (by omega), Memory.store,
              show c.w + 1 + (len - (c.r + 1)) = c.w + (len - c.r) by omega]
        · rw [if_neg hroom] at this
          obtain ⟨r, h1, h2, h3⟩ := this
          rw [if_neg (by omega)]
          refine ⟨r, h1, by omega, ?_⟩
          rw [h3, show cap - c.w = (cap - (c.w + 1)) + 1 by omega, List.take_succ_cons, Memory.store]
      · rw [putByte_full dst _ (by simp; omega), if_neg (by omega)]
        refine ⟨c.r + 1, by omega, by omega, ?_⟩
        have h0 : cap - c.w = 0 := by omega
        have hwc : c.w = cap := by omega
        rw [h0, List.take_zero, Memory.store, Flow.andThen, ← hwc]

/-- How a decode that has `out` to put out from the cursors of `j` on, and would end with `code`, leaves the machine: all
of it put out and the end posted, or the destination filled and BufferTooSmall posted (R154, R159, R207). -/
def State.EndsWith (t s : State) (j : Job) (out : List Byte) (code : StatusCode) : Prop :=
  if j.w + out.length ≤ j.cap then
    ∃ r, r ≤ j.len ∧ (code = .ok → j.w + out.length + 2 ≤ r) ∧
      t = ({ s with mem := s.mem.store (j.dstBase s + j.w) out }).finishDecode
        { j with r := r, w := j.w + out.length, stage := .ended code } code
  else
    ∃ r, r ≤ j.len ∧
      t = ({ s with mem := s.mem.store (j.dstBase s + j.w) (out.take (j.cap - j.w)) }).finishDecode
        { j with r := r, w := j.cap, stage := .ended .bufferTooSmall } .bufferTooSmall

theorem runDecode_idle (fuel : Nat) {s : State} (h : s.job = none) : State.runDecode fuel s = s := by
  cases fuel with
  | zero => rfl
  | succ fuel => rw [State.runDecode, h]

theorem runDecode_step (fuel : Nat) {s : State} {j : Job} (h : s.job = some j) :
    State.runDecode (fuel + 1) s = State.runDecode fuel (s.advance j) := by
  rw [State.runDecode, h]

/-- The end of a decode does not look at the record in the state. -/
theorem finishDecode_withJob (s : State) (o : Option Job) (j : Job) (code : StatusCode) :
    ({ s with job := o }).finishDecode j code = s.finishDecode j code := by
  cases code <;> rfl

theorem runDecode_ended (fuel : Nat) {s : State} {j : Job} {code : StatusCode} (h : s.job = some j)
    (hs : j.stage = .ended code) : State.runDecode (fuel + 1) s = s.finishDecode j code := by
  rw [runDecode_step fuel h, State.advance, hs]
  exact runDecode_idle _ (State.finishDecode_job _ _ _)

/-- Putting out one part and then ending with the rest is ending with the whole. -/
theorem State.EndsWith.prepend {t s : State} {j : Job} {as bs : List Byte} {code : StatusCode} {r : Nat} {st : DecodeAt}
    (hroom : j.w + as.length ≤ j.cap)
    (h : t.EndsWith ({ s with
        mem := s.mem.store (j.dstBase s + j.w) as
        job := some { j with r := r, w := j.w + as.length, stage := st } })
      { j with r := r, w := j.w + as.length, stage := st } bs code) :
    t.EndsWith s j (as ++ bs) code := by
  have hb : Job.dstBase { j with r := r, w := j.w + as.length, stage := st } ({ s with
        mem := s.mem.store (j.dstBase s + j.w) as
        job := some { j with r := r, w := j.w + as.length, stage := st } }) = j.dstBase s := rfl
  unfold EndsWith at h ⊢
  simp only [hb] at h
  simp only [List.length_append] at h ⊢
  by_cases h1 : j.w + as.length + bs.length ≤ j.cap
  · rw [if_pos h1] at h
    rw [if_pos (by omega), Memory.store_append, Nat.add_assoc (j.dstBase s), ← Nat.add_assoc j.w]
    obtain ⟨r', h2, h3, h4⟩ := h
    exact ⟨r', h2, h3, h4⟩
  · rw [if_neg h1] at h
    rw [if_neg (by omega)]
    obtain ⟨r', h2, h3⟩ := h
    have ht : (as ++ bs).take (j.cap - j.w) = as ++ bs.take (j.cap - (j.w + as.length)) := by
      rw [List.take_append, List.take_of_length_le (by omega), Nat.sub_sub]
    rw [ht, Memory.store_append, Nat.add_assoc (j.dstBase s)]
    exact ⟨r', h2, h3⟩

/-- The data bytes of the first block come first in the reference decoder's output. -/
theorem Ref.decSeq_data {c : Byte} (hc : c ≠ 0) (F : Nat) (rest : List Byte) :
    ∃ tail, (Ref.decSeq (F + 1) (c :: rest)).1 = rest.take (c.toNat - 1) ++ tail := by
  rw [Ref.decSeq, if_neg hc]
  by_cases h : rest.length < c.toNat - 1
  · rw [if_pos h]
    exact ⟨[], by simp [List.take_of_length_le (Nat.le_of_lt h)]⟩
  · rw [if_neg h]
    by_cases h2 : c = 0xFF
    · rw [if_pos h2]; exact ⟨_, rfl⟩
    · rw [if_neg h2]
      simp only
      split
      · exact ⟨[], (List.append_nil _).symm⟩
      · split
        · exact ⟨[], (List.append_nil _).symm⟩
        · exact ⟨_, rfl⟩

/-- A destination that fills inside the first part of the output has filled, whatever would have followed. -/
theorem State.EndsWith.of_full {t s : State} {j : Job} {as tail : List Byte} {code : StatusCode} {r : Nat}
    (hfull : ¬ j.w + as.length ≤ j.cap) (hr : r ≤ j.len)
    (ht : t = ({ s with mem := s.mem.store (j.dstBase s + j.w) (as.take (j.cap - j.w)) }).finishDecode
      { j with r := r, w := j.cap, stage := .ended .bufferTooSmall } .bufferTooSmall) :
    t.EndsWith s j (as ++ tail) code := by
  unfold EndsWith
  rw [if_neg (by simp only [List.length_append]; omega)]
  refine ⟨r, hr, ?_⟩
  rw [ht, List.take_append_of_le_length (by omega)]

theorem State.EndsWith.of_room {t s : State} {j : Job} {out : List Byte} {code : StatusCode} {r : Nat}
    (hroom : j.w + out.length ≤ j.cap) (hr : r ≤ j.len) (hok : code = .ok → j.w + out.length + 2 ≤ r)
    (ht : t = ({ s with mem := s.mem.store (j.dstBase s + j.w) out }).finishDecode
      { j with r := r, w := j.w + out.length, stage := .ended code } code) : t.EndsWith s j out code := by
  unfold EndsWith
  rw [if_pos hroom]
  exact ⟨r, hr, hok, ht⟩

/-- A decode from a length byte on, run to its end, is the reference decoder on the input that is left, cut at the
destination's capacity (R150, R152, R154 to R160, R207). -/
theorem runDecode_spec (F : Nat) : ∀ (fuel : Nat) (s : State) (j : Job) (left : List Byte), s.job = some j → j.stage = .lengthByte →
    s.mem.wf = true → j.r ≤ j.len → j.w ≤ j.cap → j.w ≤ j.r → Job.Apart (j.srcBase s) (j.dstBase s) j.len j.cap j.r j.w →
    j.len - j.r < F → 2 * (j.len - j.r) + 3 ≤ fuel →
    s.mem.slice (j.srcBase s + j.r) (j.len - j.r) = left →
    (State.runDecode fuel s).EndsWith s j (Ref.decSeq F left).1 (Ref.decSeq F left).2 := by
  induction F with
  | zero => intros; omega
  | succ F ih =>
    intro fuel s j left hjob hstage hm hr hw hwr ha hF hfuel hleft
    subst hleft
    obtain ⟨fuel, rfl⟩ : ∃ f, fuel = f + 3 := ⟨fuel - 3, by omega⟩
    rw [runDecode_step _ hjob, State.advance, hstage]
    simp only
    by_cases hend : j.r < j.len
    swap
    · rw [if_neg hend, show j.len - j.r = 0 by omega, Memory.slice, Ref.decSeq,
        runDecode_ended _ (j := { j with stage := .ended .truncatedFrame }) rfl rfl]
      exact .of_room (r := j.r) (by simpa using hw) hr nofun rfl
    rw [if_pos hend]
    obtain ⟨d, hd⟩ : ∃ d, j.len - j.r = d + 1 := ⟨j.len - j.r - 1, by omega⟩
    have hdl : j.len - (j.r + 1) = d := by omega
    rw [hd, Memory.slice, show s.mem.read (j.srcBase s + j.r) = j.byteAt s from rfl]
    generalize hcb : j.byteAt s = c
    have hrl : (s.mem.slice (j.srcBase s + j.r + 1) d).length = d := Memory.slice_length _ _ _
    unfold State.takeLengthByte
    by_cases hc : c = 0
    · -- 0x00 at a length-byte position
      simp only [if_pos hc, Ref.decSeq]
      rw [runDecode_ended _ (j := { j with r := j.r + 1, stage := .ended .invalidLengthByte }) rfl rfl]
      exact .of_room (r := j.r + 1) (by simpa using hw) hend nofun rfl
    simp only [if_neg hc]
    have hspec := copyBlock_spec (src := j.srcBase s) (dst := j.dstBase s) (len := j.len) (cap := j.cap) (dataCount c)
      ⟨s.mem, j.r + 1, j.w⟩ hm hend hw (ha.imp id fun h => ⟨h.1, by simp; omega⟩)
    have hmin : s.mem.slice (j.srcBase s + j.r + 1) (min (dataCount c) d) =
        (s.mem.slice (j.srcBase s + j.r + 1) d).take (dataCount c) := by
      rw [← Memory.slice_take _ _ _ _ (Nat.min_le_right (dataCount c) d)]
      conv_rhs => rw [List.take_eq_take_min, hrl]
    simp only [hdl, ← Nat.add_assoc, hmin] at hspec
    generalize hrest : s.mem.slice (j.srcBase s + j.r + 1) d = rest at *
    obtain ⟨tail, htail⟩ := Ref.decSeq_data hc F rest
    have hcnt : c.toNat - 1 = dataCount c := rfl
    by_cases hroom : j.w + (rest.take (dataCount c)).length ≤ j.cap
    swap
    · -- the destination fills inside the block's data
      rw [if_neg hroom] at hspec
      obtain ⟨r, h1, h2, h3⟩ := hspec
      rw [h3]
      simp only [State.withCursors]
      rw [runDecode_ended _ (j := { j with r := r, w := j.cap, stage := .ended .bufferTooSmall }) rfl rfl, htail, hcnt]
      exact .of_full hroom h1 rfl
    rw [if_pos hroom] at hspec
    rw [hspec]
    by_cases hk : dataCount c ≤ d
    swap
    · -- the input ends inside the block's data
      have htake : rest.take (dataCount c) = rest := List.take_of_length_le (by omega)
      rw [if_neg hk]
      simp only [State.withCursors, Ref.decSeq, if_neg hc, htake]
      rw [if_pos (by omega)]
      rw [runDecode_ended _ (j := { j with r := j.len, w := j.w + d, stage := .ended .truncatedFrame }) rfl rfl]
      rw [htake] at hroom
      exact .of_room (r := j.len) hroom (Nat.le_refl _) nofun (by rw [hrl]; rfl)
    rw [if_pos hk]
    have htl : (rest.take (dataCount c)).length = dataCount c := by rw [List.length_take]; omega
    have hdrop : rest.drop (dataCount c) = s.mem.slice (j.srcBase s + j.r + 1 + dataCount c) (d - dataCount c) := by
      rw [← hrest]; exact Memory.slice_drop _ _ _ _ hk
    have hread : ∀ i, j.r + 1 + dataCount c ≤ i → i < j.len →
        (s.mem.store (j.dstBase s + j.w) (rest.take (dataCount c))).read (j.srcBase s + i) = s.mem.read (j.srcBase s + i) := by
      intro i hi hil
      apply Memory.read_store_outside _ _ hm
      rw [htl] at hroom ⊢
      rcases ha with h | ⟨h, _⟩
      · have := rangesMeet_false.mp h (j.srcBase s + i) (by omega) (by omega)
        omega
      · omega
    have hunread : (s.mem.store (j.dstBase s + j.w) (rest.take (dataCount c))).slice
        (j.srcBase s + (j.r + 1 + dataCount c)) (j.len - (j.r + 1 + dataCount c)) = rest.drop (dataCount c) := by
      rw [hdrop, show j.len - (j.r + 1 + dataCount c) = d - dataCount c by omega,
        show j.srcBase s + j.r + 1 + dataCount c = j.srcBase s + (j.r + 1 + dataCount c) by omega]
      exact Memory.slice_congr fun i hi => by
        rw [Nat.add_assoc]; exact hread _ (by omega) (by omega)
    have ha2 : Job.Apart (j.srcBase s) (j.dstBase s) j.len j.cap (j.r + 1 + dataCount c) (j.w + dataCount c) :=
      ha.imp id fun h => ⟨h.1, by omega⟩
    simp only [State.withCursors, Ref.decSeq, if_neg hc]
    rw [if_neg (show ¬ rest.length < c.toNat - 1 by omega), hcnt]
    rw [htl] at hroom
    by_cases hff : c = 0xFF
    · -- a continuation block: a length byte again
      simp only [if_pos hff]
      refine State.EndsWith.prepend (r := j.r + 1 + dataCount c) (st := .lengthByte) (by rw [htl]; exact hroom) ?_
      rw [htl]
      exact ih (fuel + 2) _ { j with r := j.r + 1 + dataCount c, w := j.w + dataCount c, stage := .lengthByte }
        (rest.drop (dataCount c)) rfl rfl (Memory.store_wf _ _ hm) (by simp; omega) (by simp; omega) (by simp; omega)
        ha2 (by simp; omega) (by simp; omega) hunread
    · -- a bounded block: the follow position
      simp only [if_neg hff]
      rw [runDecode_step (fuel + 1)
        (j := { j with r := j.r + 1 + dataCount c, w := j.w + dataCount c, stage := .follow }) rfl, State.advance]
      simp only
      by_cases hend2 : j.r + 1 + dataCount c < j.len
      swap
      · rw [if_neg hend2]
        have hnil : rest.drop (dataCount c) = [] := List.drop_of_length_le (by omega)
        simp only [hnil]
        rw [runDecode_ended fuel (j := { j with
          r := j.r + 1 + dataCount c, w := j.w + dataCount c, stage := .ended .truncatedFrame }) rfl rfl]
        refine .of_room (r := j.r + 1 + dataCount c) (by rw [htl]; exact hroom) (by omega) nofun ?_
        rw [htl]; rfl
      rw [if_pos hend2]
      obtain ⟨e, he⟩ : ∃ e, j.len - (j.r + 1 + dataCount c) = e + 1 := ⟨j.len - (j.r + 1 + dataCount c) - 1, by omega⟩
      have hcons := hunread
      rw [he, Memory.slice] at hcons
      generalize hb : (s.mem.store (j.dstBase s + j.w) (rest.take (dataCount c))).read
        (j.srcBase s + (j.r + 1 + dataCount c)) = b at hcons
      generalize hby : Job.byteAt _ _ = b'
      obtain rfl : b = b' := hb.symm.trans hby
      rw [← hcons]
      simp only
      by_cases hb0 : b = 0
      · -- the terminator
        simp only [if_pos hb0, State.takeTerminator, State.withCursors]
        rw [runDecode_ended fuel (j := { j with
          r := j.r + 1 + dataCount c + 1, w := j.w + dataCount c, stage := .ended .ok }) rfl rfl]
        refine .of_room (r := j.r + 1 + dataCount c + 1) (by rw [htl]; exact hroom) (by omega)
          (fun _ => by rw [htl]; omega) ?_
        rw [htl]; rfl
      · -- the implied zero
        simp only [if_neg hb0, State.takeImpliedZero]
        rw [List.append_cons (rest.take (dataCount c)) (0 : Byte)]
        by_cases hz : j.w + dataCount c < j.cap
        · have hz1 : ((s.mem.store (j.dstBase s + j.w) (rest.take (dataCount c))).write
              (j.dstBase s + (j.w + dataCount c)) 0).slice (j.srcBase s + (j.r + 1 + dataCount c))
              (j.len - (j.r + 1 + dataCount c)) = rest.drop (dataCount c) := by
            rw [← hunread]
            refine Memory.slice_congr fun i hi => Memory.read_write_other (Memory.store_wf _ _ hm) _ ?_
            rw [Nat.add_assoc]
            rcases ha with h | ⟨h, _⟩
            · intro hx
              exact rangesMeet_false.mp h (j.srcBase s + (j.r + 1 + dataCount c + i)) (by omega) (by omega)
                ⟨by omega, by omega⟩
            · omega
          rw [putByte_room _ _ (by simpa using hz)]
          simp only [State.withCursors]
          have hzl : (rest.take (dataCount c) ++ [(0 : Byte)]).length = dataCount c + 1 := by simp [htl]
          refine State.EndsWith.prepend (r := j.r + 1 + dataCount c) (st := .lengthByte) (by rw [hzl]; omega) ?_
          rw [hzl, Memory.store_append, htl, Nat.add_assoc (j.dstBase s)]
          refine ih (fuel + 1) _ { j with r := j.r + 1 + dataCount c, w := j.w + (dataCount c + 1), stage := .lengthByte }
            _ rfl rfl (Memory.write_wf (Memory.store_wf _ _ hm) _ _) (by simp; omega) (by simp; omega) (by simp; omega)
            (ha2.imp id fun h => ⟨h.1, by simp; omega⟩) (by simp; omega) (by simp; omega) ?_
          exact hz1.trans hcons.symm
        · rw [putByte_full _ _ (by simp; omega)]
          simp only [State.withCursors]
          rw [runDecode_ended fuel (j := { j with
            r := j.r + 1 + dataCount c, w := j.w + dataCount c, stage := .ended .bufferTooSmall }) rfl rfl]
          refine .of_full (r := j.r + 1 + dataCount c) (by simp [htl]; omega) (by omega) ?_
          rw [show j.cap - j.w = (rest.take (dataCount c)).length by rw [htl]; omega, List.take_left,
            show j.w + dataCount c = j.cap by omega]
          rfl

/-- A whole decode from its issue is the reference decoder on its input, cut at its capacity. -/
theorem decodeAll_spec (s : State) (form : DecodeForm) (hm : s.mem.wf = true)
    (ha : Job.Apart ((s.newJob form).srcBase s) ((s.newJob form).dstBase s) s.argLen (s.newJob form).cap 0 0) :
    let q := Ref.output (s.mem.slice ((s.newJob form).srcBase s) s.argLen)
    (s.decodeAll form).EndsWith s (s.newJob form) q.1 q.2 := by
  have h := runDecode_spec (s.argLen + 1) (2 * s.argLen + 3) (s.startDecode form) (s.newJob form)
    (s.mem.slice ((s.newJob form).srcBase s) s.argLen) rfl rfl hm (Nat.zero_le _) (Nat.zero_le _) (Nat.zero_le _) ha
    (by simp [State.newJob]) (by simp [State.newJob]) rfl
  unfold Ref.output
  rw [Memory.slice_length]
  exact h

end Sys2Proof.Machine
end

