-- ==== Sys2Proof/Laws/Commands.lean ====
section
/-! SUPPORT. When the commands are refused, and how they end when they are not. -/

namespace Sys2Proof.Machine

theorem lenRefusal_none (s : State) : s.lenRefusal = none ↔ s.LengthLegal := by
  unfold State.lenRefusal State.argLenUnwritten State.messageTooLong State.LengthLegal
  cases s.specified.argLen <;> simp

theorem encsStartRefusal_none (s : State) : s.encsStartRefusal = none ↔ s.LengthLegal := lenRefusal_none s

theorem decRefusal_none (s : State) : s.decRefusal = none ↔ s.OperandsLegal := by
  unfold State.decRefusal State.operandsUnwritten State.OperandsLegal
  cases s.specified.argLen <;> cases s.specified.dstCap <;> cases s.buffersOverlap <;>
    cases s.touchesDevice .src s.argLen <;> cases s.touchesDevice .dst s.dstCap <;> simp

theorem encRefusal_none (s : State) : s.encRefusal = none ↔ s.argLen ≤ s.cfg.nMax ∧ s.OperandsLegal := by
  rw [← decRefusal_none]
  unfold State.encRefusal State.decRefusal State.messageTooLong
  by_cases h : s.cfg.nMax < s.argLen
  · simp only [decide_eq_true h, if_true]
    constructor
    · intro hn; split at hn <;> cases hn
    · omega
  · simp [h, Nat.le_of_not_lt h]

theorem deciRefusal_none (s : State) : s.deciRefusal = none ↔ s.InPlaceLegal := by
  unfold State.deciRefusal State.argLenUnwritten State.InPlaceLegal
  cases s.specified.argLen <;> simp

/-- The bytes a command has stored read back, and no other has changed. -/
theorem Memory.store_holds {m : Memory} (h : m.wf = true) (base : Nat) (bs : List Byte) :
    (m.store base bs).Holds base bs ∧ m.SameOutside (m.store base bs) base bs.length :=
  ⟨Memory.slice_store base bs h, fun _ ha => Memory.read_store_outside base bs h ha⟩

/-- A completion with success behind the stores of its output (R203). -/
theorem postOk_endsOk (s : State) (o : Option Job) (b : Buffer) (out : List Byte) (h : s.mem.wf = true) :
    (({ s with job := o, mem := s.mem.store (s.addr b 0) out }).postOk out.length).EndsOk s o b out := by
  obtain ⟨h1, h2⟩ := Memory.store_holds h (s.addr b 0) out
  exact ⟨rfl, h1, h2⟩

/-- A completion with a failure behind the stores of its output (R203, R209), which are in the `n` bytes it may leave
without a specified value, as are the `k` bytes it does. -/
theorem leaveFailed_endsFailed (s : State) (o : Option Job) (b : Buffer) (n k : Nat) (out : List Byte) (code : StatusCode)
    (h : s.mem.wf = true) (hl : out.length ≤ n) (hk : k ≤ n) :
    ((({ s with job := o, mem := s.mem.store (s.addr b 0) out }).leaveFailed b k).postFailure code).EndsFailed
      s o b n out code := by
  obtain ⟨h1, h2⟩ := Memory.store_holds h (s.addr b 0) out
  have hp := Nat.two_pow_pos s.cfg.width
  have h3 : s.mem.SameOutside (s.mem.store (s.addr b 0) out) (s.addr b 0) n :=
    h2.mono (Nat.le_refl _) (Nat.add_le_add_left hl _)
  unfold State.leaveFailed State.EndsFailed
  rcases s.cfg.failedDest with _ | _ <;> simp only
  · exact ⟨rfl, Nat.mod_lt _ hp, Nat.lt_succ_self _, h3, fun _ => ⟨h1, h2⟩⟩
  · refine ⟨rfl, Nat.mod_lt _ hp, Nat.lt_of_lt_of_le (Nat.lt_succ_self _) (Nat.le_succ _), ?_, nofun⟩
    exact h3.trans fun a ha => Memory.read_spoil_outside _ _ _ (Memory.store_wf _ _ h) (by change a < s.addr b 0 ∨ s.addr b 0 + k ≤ a; omega)

/-- A failure leaves memory in its canonical form. -/
theorem leaveFailed_wf {s : State} (b : Buffer) (n : Nat) (code : StatusCode) (h : s.mem.wf = true) :
    ((s.leaveFailed b n).postFailure code).mem.wf = true := by
  simp only [State.leaveFailed, State.postFailure, State.spoil]
  split
  · exact h
  · exact Memory.spoil_wf _ _ _ h

/-- `ENC`, when it is not refused (R125, R127, R128). -/
theorem exec_enc_spec (s : State) (hm : s.mem.wf = true) (hr : s.encRefusal = none) :
    ∃ t, exec .enc s = .next t ∧ t.mem.wf = true ∧
      if (Ref.enc (s.input .src)).length ≤ s.dstCap then t.EndsOk s s.job .dst (Ref.enc (s.input .src))
      else t.EndsFailed s s.job .dst s.dstCap ((Ref.enc (s.input .src)).take s.dstCap) .bufferTooSmall := by
  refine ⟨_, show guarded _ _ = _ by rw [hr]; rfl, ?_⟩
  have he := encodeFrame_emits (cap := s.dstCap) hm ((encRefusal_none s).mp hr).2.2.2.1
  unfold Flow.Emits at he
  simp only [Nat.zero_add, Nat.add_zero, Nat.sub_zero] at he
  unfold State.input
  split at he
  · rename_i hl
    rw [if_pos hl, he]
    exact ⟨Memory.store_wf _ _ hm, postOk_endsOk s s.job .dst _ hm⟩
  · rename_i hl
    obtain ⟨r, he⟩ := he
    rw [if_neg hl, he]
    exact ⟨leaveFailed_wf _ _ _ (Memory.store_wf _ _ hm), leaveFailed_endsFailed s s.job .dst s.dstCap s.dstCap _ _ hm (List.length_take_le _ _) (Nat.le_refl _)⟩

/-- The reference decoder puts out fewer bytes than its input has. -/
theorem Ref.decSeq_length (F : Nat) (f : List Byte) : (Ref.decSeq F f).1.length ≤ f.length - 1 := by
  induction F generalizing f with
  | zero => exact Nat.zero_le _
  | succ F ih =>
    rcases f with _ | ⟨c, rest⟩
    · exact Nat.zero_le _
    rw [Ref.decSeq]
    split
    · exact Nat.zero_le _
    split
    · exact Nat.le_refl _
    have h := ih (rest.drop (c.toNat - 1))
    simp only [List.length_drop] at h
    have hc : 1 ≤ c.toNat := by
      rcases Nat.eq_zero_or_pos c.toNat with h0 | h0
      · exact absurd (BitVec.eq_of_toNat_eq (by simpa using h0)) ‹¬c = 0›
      · exact h0
    split
    · have : c.toNat = 255 := by rw [‹c = 0xFF›]; rfl
      simp only [List.length_append, List.length_take, List.length_cons]
      omega
    · simp only
      split
      · simp only [List.length_take, List.length_cons]; omega
      · rename_i hb
        have := congrArg List.length hb
        simp only [List.length_drop, List.length_cons] at this
        split
        · simp only [List.length_take, List.length_cons]; omega
        · simp only [List.length_append, List.length_take, List.length_cons]; omega

theorem Ref.output_length (f : List Byte) : (Ref.output f).1.length ≤ f.length - 1 := Ref.decSeq_length _ _

/-- `DEC` and `DECI`, when they are not refused (R152, R154, R160): the reference decoder's output cut at the capacity,
and the failure met first. A failed `DECI` leaves at most the bytes it has read. -/
theorem decodeAll_ends (s : State) (form : DecodeForm) (hm : s.mem.wf = true)
    (ha : Job.Apart ((s.newJob form).srcBase s) ((s.newJob form).dstBase s) s.argLen (s.newJob form).cap 0 0) :
    let q := Ref.output (s.mem.slice ((s.newJob form).srcBase s) s.argLen)
    let cap := (s.newJob form).cap
    let t := s.decodeAll form
    t.mem.wf = true ∧
    if q.1.length ≤ cap then
      (if q.2 = .ok then t.EndsOk s none form.dest q.1 else t.EndsFailed s none form.dest cap q.1 q.2)
    else t.EndsFailed s none form.dest cap (q.1.take cap) .bufferTooSmall := by
  intro q cap t
  have h : t.EndsWith s (s.newJob form) q.1 q.2 := decodeAll_spec s form hm ha
  have hcap : ∀ r, r ≤ s.argLen → ∀ w st, Job.entitled { s.newJob form with r := r, w := w, stage := st } ≤ cap := by
    intro r hr w st
    cases form
    · exact Nat.le_refl _
    · exact hr
  have hb : (s.newJob form).dstBase s + (s.newJob form).w = s.addr form.dest 0 := by cases form <;> rfl
  unfold State.EndsWith at h
  rw [hb] at h
  have hw : (s.newJob form).w = 0 := by cases form <;> rfl
  simp only [hw, Nat.zero_add, Nat.sub_zero] at h
  change if q.1.length ≤ cap then _ else _ at h
  by_cases hl : q.1.length ≤ cap
  · rw [if_pos hl] at h ⊢
    obtain ⟨r, h1, _, h3⟩ := h
    by_cases hok : q.2 = .ok
    · rw [if_pos hok, h3, hok]
      exact ⟨Memory.store_wf _ _ hm, postOk_endsOk s none form.dest _ hm⟩
    · rw [if_neg hok]
      have hf : t = ((({ s with job := none, mem := s.mem.store (s.addr form.dest 0) q.1 }).leaveFailed form.dest
          (Job.entitled { s.newJob form with r := r, w := q.1.length, stage := .ended q.2 })).postFailure q.2) := by
        rw [h3]
        revert hok
        generalize q.2 = code
        cases code <;> intro hok <;> first | exact absurd rfl hok | (cases form <;> rfl)
      rw [hf]
      exact ⟨leaveFailed_wf _ _ _ (Memory.store_wf _ _ hm),
        leaveFailed_endsFailed s none form.dest cap _ _ _ hm hl (hcap r h1 _ _)⟩
  · rw [if_neg hl] at h ⊢
    obtain ⟨r, h1, h3⟩ := h
    have hf : t = ((({ s with job := none, mem := s.mem.store (s.addr form.dest 0) (q.1.take cap) }).leaveFailed form.dest
        (Job.entitled { s.newJob form with r := r, w := cap, stage := .ended .bufferTooSmall })).postFailure
          .bufferTooSmall) := by
      rw [h3]; cases form <;> rfl
    rw [hf]
    exact ⟨leaveFailed_wf _ _ _ (Memory.store_wf _ _ hm),
      leaveFailed_endsFailed s none form.dest cap _ _ _ hm (List.length_take_le _ _) (hcap r h1 _ _)⟩

end Sys2Proof.Machine
end

