-- ==== Sys2Proof/Laws/Kept.lean ====
section
/-! SUPPORT. The induction behind every invariant, packaged once: a property that each named operation keeps is kept by
every step. -/

namespace Sys2Proof.Machine

/-- `P` is kept by every operation a step is made of. -/
structure Kept (P : State → Prop) : Prop where
  len : ∀ s, P s → s.lenRefusal = none → P (s.postOk (maxEncodedLen s.argLen))
  enc : ∀ s, P s → s.encRefusal = none →
    P (s.finishEncode (encodeFrame s.mem (s.addr .src 0) (s.addr .dst 0) s.argLen s.dstCap))
  startDecode : ∀ s form, P s → s.job = none → P (s.startDecode form)
  advance : ∀ s j, P s → s.job = some j → P (s.advance j)
  encsStart : ∀ s, P s → s.encsStartRefusal = none →
    P (({ s with iter := ⟨s.argLen, 0, 0, .fin, .head⟩ }).postStatus .ok)
  encsNext : ∀ s, P s → s.encsNextRefusal = none → P s.nextByte
  argLen : ∀ s v, P s → v < 2 ^ s.cfg.width →
    P { s with argLen := v, specified := { s.specified with argLen := true } }
  dstCap : ∀ s v, P s → v < 2 ^ s.cfg.width →
    P { s with dstCap := v, specified := { s.specified with dstCap := true } }
  hostData : ∀ s v, P s → P { s with hostData := v }
  host : ∀ s v, P s → P { s with host := v }
  poke : ∀ (s : State) a v, P s → P { s with mem := s.mem.write a v }
  place : ∀ s v, P s → P { s with place := v }
  reset : ∀ s, P s → P s.resetRegisters
  spoil : ∀ s b n, P s → P (s.spoil b n)

/-- A row run while no decode is in progress. -/
theorem Kept.exec {P : State → Prop} (K : Kept P) {i : Instr} {s t : State} (hj : s.job = none) (h : P s)
    (e : exec i s = .next t) : P t := by
  rcases exec_next e with ⟨_, h1, rfl⟩ | ⟨_, h1, rfl⟩ | ⟨_, h1, rfl⟩ | ⟨_, h1, rfl⟩ | ⟨_, h1, rfl⟩ | ⟨_, h1, rfl⟩ |
    ⟨j, h1, _⟩
  · exact K.len _ h h1
  · exact K.enc _ h h1
  · exact runDecode_keeps K.advance _ _ (K.startDecode _ _ h hj)
  · exact runDecode_keeps K.advance _ _ (K.startDecode _ _ h hj)
  · exact K.encsStart _ h h1
  · exact K.encsNext _ h h1
  · rw [hj] at h1; cases h1

theorem Kept.step {P : State → Prop} (K : Kept P) {s t : State} (h : P s) (e : step s = .next t) : P t := by
  rcases step_next e with ⟨_, _, rfl⟩ | ⟨j, hj, _, rfl⟩ | ⟨a, rest, hh, hj, e⟩
  · exact h
  · exact K.advance _ _ h hj
  · have h' := K.host s rest h
    rcases hostStep_next e with ⟨v, rfl, h1, rfl⟩ | ⟨v, rfl, h1, rfl⟩ | ⟨v, i, h0, _, h1⟩ | ⟨v, form, rfl, h1, rfl⟩ |
      ⟨_, v, rfl⟩ | ⟨b, i, v, rfl, rfl⟩ | ⟨b, base, rfl, rfl⟩ | ⟨rfl, rfl⟩ | ⟨v, rfl, rfl | rfl | rfl⟩
    · exact K.argLen _ _ h' h1
    · exact K.dstCap _ _ h' h1
    · have hn : s.job = none := hj.resolve_right fun hx => by subst hx; simp at h0
      exact K.exec (s := { s with host := rest }) hn h' h1
    · exact K.startDecode _ _ h' (hj.resolve_right nofun)
    · exact K.hostData _ _ h'
    · exact K.poke _ _ _ h'
    · exact K.place _ _ h'
    · unfold State.applyReset
      split
      · exact K.reset _ h'
      · split
        · exact K.reset _ (K.spoil _ _ _ h')
        · exact K.reset _ (K.spoil _ _ _ h')
    · exact K.reset _ h'
    · exact K.reset _ (K.spoil _ _ _ h')
    · exact K.reset _ (K.spoil _ _ _ h')

/-- The registers `ENC` leaves alone at its end. -/
theorem finishEncode_fields (s : State) (f : Flow) :
    (s.finishEncode f).cfg = s.cfg ∧ (s.finishEncode f).argLen = s.argLen ∧ (s.finishEncode f).dstCap = s.dstCap ∧
    (s.finishEncode f).iter = s.iter ∧ (s.finishEncode f).sdata = s.sdata ∧ (s.finishEncode f).svalid = s.svalid ∧
    (s.finishEncode f).job = s.job ∧ (s.finishEncode f).place = s.place ∧ (s.finishEncode f).host = s.host ∧
    (s.finishEncode f).hostData = s.hostData ∧ (s.finishEncode f).specified.argLen = s.specified.argLen ∧
    (s.finishEncode f).specified.dstCap = s.specified.dstCap := by
  refine ⟨?_, ?_, ?_, ?_, ?_, ?_, ?_, ?_, ?_, ?_, ?_, ?_⟩ <;> cases f <;>
    simp only [State.finishEncode, State.leaveFailed, State.postOk, State.postFailure, State.spoil] <;>
    split <;> rfl

/-- The registers `ENCS.NEXT` leaves alone. -/
theorem nextByte_fields (s : State) :
    s.nextByte.cfg = s.cfg ∧ s.nextByte.argLen = s.argLen ∧ s.nextByte.dstCap = s.dstCap ∧ s.nextByte.rlen = s.rlen ∧
    s.nextByte.job = s.job ∧ s.nextByte.mem = s.mem ∧ s.nextByte.place = s.place ∧ s.nextByte.host = s.host ∧
    s.nextByte.hostData = s.hostData ∧ s.nextByte.status = 0 ∧ s.nextByte.specified.argLen = s.specified.argLen ∧
    s.nextByte.specified.dstCap = s.specified.dstCap := by
  unfold State.nextByte
  split <;> exact ⟨rfl, rfl, rfl, rfl, rfl, rfl, rfl, rfl, rfl, rfl, rfl, rfl⟩

/-- A step inside a decode is either within it or its end. -/
theorem advance_cases (s : State) (j : Job) :
    (∃ c stage, s.advance j = s.withCursors j c stage ∧
      Cursors.Moves (j.srcBase s) (j.dstBase s) j.len j.cap ⟨s.mem, j.r, j.w⟩ c) ∨
    ∃ code, j.stage = .ended code ∧ s.advance j = s.finishDecode j code := by
  rcases hs : j.stage with _ | _ | code
  · exact .inl (advance_moves s j (by rw [hs]; nofun))
  · exact .inl (advance_moves s j (by rw [hs]; nofun))
  · exact .inr ⟨code, rfl, by rw [State.advance, hs]⟩

/-- The memory a decode leaves at its end: only the bytes it may leave without a specified value can have changed. -/
theorem finishDecode_mem (s : State) (j : Job) (code : StatusCode) (h : s.mem.wf = true) :
    (s.finishDecode j code).mem.wf = true ∧
    s.mem.SameOutside (s.finishDecode j code).mem (j.dstBase s) j.entitled ∧
    (s.cfg.failedDest = .written ∨ code = .ok → (s.finishDecode j code).mem = s.mem) := by
  rcases hc : s.cfg.failedDest with _ | _
  · have hmem : (s.finishDecode j code).mem = s.mem := by
      cases code <;> simp only [State.finishDecode, State.leaveFailed, State.postOk, State.postFailure, hc]
    rw [hmem]
    exact ⟨h, .refl _ _ _, fun _ => rfl⟩
  · have hmem : (s.finishDecode j code).mem = s.mem ∧ code = .ok ∨
        (s.finishDecode j code).mem = s.mem.spoil s.free (j.dstBase s) j.entitled ∧ code ≠ .ok := by
      cases code
      case ok => exact .inl ⟨rfl, rfl⟩
      all_goals
        refine .inr ⟨?_, nofun⟩
        simp only [State.finishDecode, State.leaveFailed, State.postFailure, hc]
        rfl
    rcases hmem with ⟨hmem, _⟩ | ⟨hmem, hne⟩
    · rw [hmem]
      exact ⟨h, .refl _ _ _, fun _ => rfl⟩
    · rw [hmem]
      exact ⟨Memory.spoil_wf _ _ _ h, fun _ ha => Memory.read_spoil_outside _ _ _ h ha,
        fun hx => absurd (hx.resolve_left nofun) hne⟩

end Sys2Proof.Machine
end

