-- ==== Sys2Proof/Laws/PerInstr.lean ====
section
/-! SUPPORT. Facts about every instruction as syntax, one lemma per constructor. -/

namespace Sys2Proof.Laws.WordShape

/-- An instruction's bytes are one byte, and the word of a command fits 3 bits, that of a status 2 bits: the formats
`CMD3`, `BYTE8` and `STATUS2` of the opcode table. -/
def Statement (i : Instr) : Prop :=
  (encode i).length = 1 ∧ (i.position = .command → i.word.toNat < 8) ∧ (i.position = .status → i.word.toNat < 4)
deriving Decidable

theorem len : Statement .len := by decide
theorem enc : Statement .enc := by decide
theorem dec : Statement .dec := by decide
theorem deci : Statement .deci := by decide
theorem encsStart : Statement .encsStart := by decide
theorem encsNext : Statement .encsNext := by decide
theorem reserved110 : Statement .reserved110 := by decide
theorem reserved111 : Statement .reserved111 := by decide
theorem lbInvalid : Statement .lbInvalid := by decide
theorem lb01 : Statement .lb01 := by decide
theorem lb02 : Statement .lb02 := by decide
theorem lb03 : Statement .lb03 := by decide
theorem lb04 : Statement .lb04 := by decide
theorem lb05 : Statement .lb05 := by decide
theorem lb06 : Statement .lb06 := by decide
theorem lb07 : Statement .lb07 := by decide
theorem lb08 : Statement .lb08 := by decide
theorem lb09 : Statement .lb09 := by decide
theorem lb0A : Statement .lb0A := by decide
theorem lb0B : Statement .lb0B := by decide
theorem lb0C : Statement .lb0C := by decide
theorem lb0D : Statement .lb0D := by decide
theorem lb0E : Statement .lb0E := by decide
theorem lb0F : Statement .lb0F := by decide
theorem lb10 : Statement .lb10 := by decide
theorem lb11 : Statement .lb11 := by decide
theorem lb12 : Statement .lb12 := by decide
theorem lb13 : Statement .lb13 := by decide
theorem lb14 : Statement .lb14 := by decide
theorem lb15 : Statement .lb15 := by decide
theorem lb16 : Statement .lb16 := by decide
theorem lb17 : Statement .lb17 := by decide
theorem lb18 : Statement .lb18 := by decide
theorem lb19 : Statement .lb19 := by decide
theorem lb1A : Statement .lb1A := by decide
theorem lb1B : Statement .lb1B := by decide
theorem lb1C : Statement .lb1C := by decide
theorem lb1D : Statement .lb1D := by decide
theorem lb1E : Statement .lb1E := by decide
theorem lb1F : Statement .lb1F := by decide
theorem lb20 : Statement .lb20 := by decide
theorem lb21 : Statement .lb21 := by decide
theorem lb22 : Statement .lb22 := by decide
theorem lb23 : Statement .lb23 := by decide
theorem lb24 : Statement .lb24 := by decide
theorem lb25 : Statement .lb25 := by decide
theorem lb26 : Statement .lb26 := by decide
theorem lb27 : Statement .lb27 := by decide
theorem lb28 : Statement .lb28 := by decide
theorem lb29 : Statement .lb29 := by decide
theorem lb2A : Statement .lb2A := by decide
theorem lb2B : Statement .lb2B := by decide
theorem lb2C : Statement .lb2C := by decide
theorem lb2D : Statement .lb2D := by decide
theorem lb2E : Statement .lb2E := by decide
theorem lb2F : Statement .lb2F := by decide
theorem lb30 : Statement .lb30 := by decide
theorem lb31 : Statement .lb31 := by decide
theorem lb32 : Statement .lb32 := by decide
theorem lb33 : Statement .lb33 := by decide
theorem lb34 : Statement .lb34 := by decide
theorem lb35 : Statement .lb35 := by decide
theorem lb36 : Statement .lb36 := by decide
theorem lb37 : Statement .lb37 := by decide
theorem lb38 : Statement .lb38 := by decide
theorem lb39 : Statement .lb39 := by decide
theorem lb3A : Statement .lb3A := by decide
theorem lb3B : Statement .lb3B := by decide
theorem lb3C : Statement .lb3C := by decide
theorem lb3D : Statement .lb3D := by decide
theorem lb3E : Statement .lb3E := by decide
theorem lb3F : Statement .lb3F := by decide
theorem lb40 : Statement .lb40 := by decide
theorem lb41 : Statement .lb41 := by decide
theorem lb42 : Statement .lb42 := by decide
theorem lb43 : Statement .lb43 := by decide
theorem lb44 : Statement .lb44 := by decide
theorem lb45 : Statement .lb45 := by decide
theorem lb46 : Statement .lb46 := by decide
theorem lb47 : Statement .lb47 := by decide
theorem lb48 : Statement .lb48 := by decide
theorem lb49 : Statement .lb49 := by decide
theorem lb4A : Statement .lb4A := by decide
theorem lb4B : Statement .lb4B := by decide
theorem lb4C : Statement .lb4C := by decide
theorem lb4D : Statement .lb4D := by decide
theorem lb4E : Statement .lb4E := by decide
theorem lb4F : Statement .lb4F := by decide
theorem lb50 : Statement .lb50 := by decide
theorem lb51 : Statement .lb51 := by decide
theorem lb52 : Statement .lb52 := by decide
theorem lb53 : Statement .lb53 := by decide
theorem lb54 : Statement .lb54 := by decide
theorem lb55 : Statement .lb55 := by decide
theorem lb56 : Statement .lb56 := by decide
theorem lb57 : Statement .lb57 := by decide
theorem lb58 : Statement .lb58 := by decide
theorem lb59 : Statement .lb59 := by decide
theorem lb5A : Statement .lb5A := by decide
theorem lb5B : Statement .lb5B := by decide
theorem lb5C : Statement .lb5C := by decide
theorem lb5D : Statement .lb5D := by decide
theorem lb5E : Statement .lb5E := by decide
theorem lb5F : Statement .lb5F := by decide
theorem lb60 : Statement .lb60 := by decide
theorem lb61 : Statement .lb61 := by decide
theorem lb62 : Statement .lb62 := by decide
theorem lb63 : Statement .lb63 := by decide
theorem lb64 : Statement .lb64 := by decide
theorem lb65 : Statement .lb65 := by decide
theorem lb66 : Statement .lb66 := by decide
theorem lb67 : Statement .lb67 := by decide
theorem lb68 : Statement .lb68 := by decide
theorem lb69 : Statement .lb69 := by decide
theorem lb6A : Statement .lb6A := by decide
theorem lb6B : Statement .lb6B := by decide
theorem lb6C : Statement .lb6C := by decide
theorem lb6D : Statement .lb6D := by decide
theorem lb6E : Statement .lb6E := by decide
theorem lb6F : Statement .lb6F := by decide
theorem lb70 : Statement .lb70 := by decide
theorem lb71 : Statement .lb71 := by decide
theorem lb72 : Statement .lb72 := by decide
theorem lb73 : Statement .lb73 := by decide
theorem lb74 : Statement .lb74 := by decide
theorem lb75 : Statement .lb75 := by decide
theorem lb76 : Statement .lb76 := by decide
theorem lb77 : Statement .lb77 := by decide
theorem lb78 : Statement .lb78 := by decide
theorem lb79 : Statement .lb79 := by decide
theorem lb7A : Statement .lb7A := by decide
theorem lb7B : Statement .lb7B := by decide
theorem lb7C : Statement .lb7C := by decide
theorem lb7D : Statement .lb7D := by decide
theorem lb7E : Statement .lb7E := by decide
theorem lb7F : Statement .lb7F := by decide
theorem lb80 : Statement .lb80 := by decide
theorem lb81 : Statement .lb81 := by decide
theorem lb82 : Statement .lb82 := by decide
theorem lb83 : Statement .lb83 := by decide
theorem lb84 : Statement .lb84 := by decide
theorem lb85 : Statement .lb85 := by decide
theorem lb86 : Statement .lb86 := by decide
theorem lb87 : Statement .lb87 := by decide
theorem lb88 : Statement .lb88 := by decide
theorem lb89 : Statement .lb89 := by decide
theorem lb8A : Statement .lb8A := by decide
theorem lb8B : Statement .lb8B := by decide
theorem lb8C : Statement .lb8C := by decide
theorem lb8D : Statement .lb8D := by decide
theorem lb8E : Statement .lb8E := by decide
theorem lb8F : Statement .lb8F := by decide
theorem lb90 : Statement .lb90 := by decide
theorem lb91 : Statement .lb91 := by decide
theorem lb92 : Statement .lb92 := by decide
theorem lb93 : Statement .lb93 := by decide
theorem lb94 : Statement .lb94 := by decide
theorem lb95 : Statement .lb95 := by decide
theorem lb96 : Statement .lb96 := by decide
theorem lb97 : Statement .lb97 := by decide
theorem lb98 : Statement .lb98 := by decide
theorem lb99 : Statement .lb99 := by decide
theorem lb9A : Statement .lb9A := by decide
theorem lb9B : Statement .lb9B := by decide
theorem lb9C : Statement .lb9C := by decide
theorem lb9D : Statement .lb9D := by decide
theorem lb9E : Statement .lb9E := by decide
theorem lb9F : Statement .lb9F := by decide
theorem lbA0 : Statement .lbA0 := by decide
theorem lbA1 : Statement .lbA1 := by decide
theorem lbA2 : Statement .lbA2 := by decide
theorem lbA3 : Statement .lbA3 := by decide
theorem lbA4 : Statement .lbA4 := by decide
theorem lbA5 : Statement .lbA5 := by decide
theorem lbA6 : Statement .lbA6 := by decide
theorem lbA7 : Statement .lbA7 := by decide
theorem lbA8 : Statement .lbA8 := by decide
theorem lbA9 : Statement .lbA9 := by decide
theorem lbAA : Statement .lbAA := by decide
theorem lbAB : Statement .lbAB := by decide
theorem lbAC : Statement .lbAC := by decide
theorem lbAD : Statement .lbAD := by decide
theorem lbAE : Statement .lbAE := by decide
theorem lbAF : Statement .lbAF := by decide
theorem lbB0 : Statement .lbB0 := by decide
theorem lbB1 : Statement .lbB1 := by decide
theorem lbB2 : Statement .lbB2 := by decide
theorem lbB3 : Statement .lbB3 := by decide
theorem lbB4 : Statement .lbB4 := by decide
theorem lbB5 : Statement .lbB5 := by decide
theorem lbB6 : Statement .lbB6 := by decide
theorem lbB7 : Statement .lbB7 := by decide
theorem lbB8 : Statement .lbB8 := by decide
theorem lbB9 : Statement .lbB9 := by decide
theorem lbBA : Statement .lbBA := by decide
theorem lbBB : Statement .lbBB := by decide
theorem lbBC : Statement .lbBC := by decide
theorem lbBD : Statement .lbBD := by decide
theorem lbBE : Statement .lbBE := by decide
theorem lbBF : Statement .lbBF := by decide
theorem lbC0 : Statement .lbC0 := by decide
theorem lbC1 : Statement .lbC1 := by decide
theorem lbC2 : Statement .lbC2 := by decide
theorem lbC3 : Statement .lbC3 := by decide
theorem lbC4 : Statement .lbC4 := by decide
theorem lbC5 : Statement .lbC5 := by decide
theorem lbC6 : Statement .lbC6 := by decide
theorem lbC7 : Statement .lbC7 := by decide
theorem lbC8 : Statement .lbC8 := by decide
theorem lbC9 : Statement .lbC9 := by decide
theorem lbCA : Statement .lbCA := by decide
theorem lbCB : Statement .lbCB := by decide
theorem lbCC : Statement .lbCC := by decide
theorem lbCD : Statement .lbCD := by decide
theorem lbCE : Statement .lbCE := by decide
theorem lbCF : Statement .lbCF := by decide
theorem lbD0 : Statement .lbD0 := by decide
theorem lbD1 : Statement .lbD1 := by decide
theorem lbD2 : Statement .lbD2 := by decide
theorem lbD3 : Statement .lbD3 := by decide
theorem lbD4 : Statement .lbD4 := by decide
theorem lbD5 : Statement .lbD5 := by decide
theorem lbD6 : Statement .lbD6 := by decide
theorem lbD7 : Statement .lbD7 := by decide
theorem lbD8 : Statement .lbD8 := by decide
theorem lbD9 : Statement .lbD9 := by decide
theorem lbDA : Statement .lbDA := by decide
theorem lbDB : Statement .lbDB := by decide
theorem lbDC : Statement .lbDC := by decide
theorem lbDD : Statement .lbDD := by decide
theorem lbDE : Statement .lbDE := by decide
theorem lbDF : Statement .lbDF := by decide
theorem lbE0 : Statement .lbE0 := by decide
theorem lbE1 : Statement .lbE1 := by decide
theorem lbE2 : Statement .lbE2 := by decide
theorem lbE3 : Statement .lbE3 := by decide
theorem lbE4 : Statement .lbE4 := by decide
theorem lbE5 : Statement .lbE5 := by decide
theorem lbE6 : Statement .lbE6 := by decide
theorem lbE7 : Statement .lbE7 := by decide
theorem lbE8 : Statement .lbE8 := by decide
theorem lbE9 : Statement .lbE9 := by decide
theorem lbEA : Statement .lbEA := by decide
theorem lbEB : Statement .lbEB := by decide
theorem lbEC : Statement .lbEC := by decide
theorem lbED : Statement .lbED := by decide
theorem lbEE : Statement .lbEE := by decide
theorem lbEF : Statement .lbEF := by decide
theorem lbF0 : Statement .lbF0 := by decide
theorem lbF1 : Statement .lbF1 := by decide
theorem lbF2 : Statement .lbF2 := by decide
theorem lbF3 : Statement .lbF3 := by decide
theorem lbF4 : Statement .lbF4 := by decide
theorem lbF5 : Statement .lbF5 := by decide
theorem lbF6 : Statement .lbF6 := by decide
theorem lbF7 : Statement .lbF7 := by decide
theorem lbF8 : Statement .lbF8 := by decide
theorem lbF9 : Statement .lbF9 := by decide
theorem lbFA : Statement .lbFA := by decide
theorem lbFB : Statement .lbFB := by decide
theorem lbFC : Statement .lbFC := by decide
theorem lbFD : Statement .lbFD := by decide
theorem lbFE : Statement .lbFE := by decide
theorem lbCont : Statement .lbCont := by decide
theorem fpTerm : Statement .fpTerm := by decide
theorem fpImpliedZero (b : Byte) : Statement (.fpImpliedZero b) := ⟨rfl, fun h => absurd h (by decide : ¬ (Position.follow = .command)), fun h => absurd h (by decide : ¬ (Position.follow = .status))⟩
theorem statusOk : Statement .statusOk := by decide
theorem statusBufferTooSmall : Statement .statusBufferTooSmall := by decide
theorem statusTruncatedFrame : Statement .statusTruncatedFrame := by decide
theorem statusInvalidLengthByte : Statement .statusInvalidLengthByte := by decide

end Sys2Proof.Laws.WordShape
end

