-- ==== Sys2Proof/Laws/Reference.lean ====
section
/-! SUPPORT. The two readings of the decoder, the recursion of R150 and the byte-sequential output of R152, are one. -/

namespace Sys2Proof.Machine

/-- `go` of R150 and the byte-sequential decoder agree, from any point on. -/
theorem Ref.decGo_decSeq (F : Nat) : ∀ (f out : List Byte) (used : Nat),
    match Ref.decGo F f out used with
    | .ok (o, u) => (Ref.decSeq F f).2 = .ok ∧ o = out ++ (Ref.decSeq F f).1 ∧
        used + (Ref.decSeq F f).1.length + 2 ≤ u ∧ u ≤ used + f.length
    | .error e => (Ref.decSeq F f).2 = e ∧ e ≠ .ok := by
  induction F with
  | zero => exact fun _ _ _ => ⟨rfl, nofun⟩
  | succ F ih =>
    intro f out used
    rcases f with _ | ⟨c, rest⟩
    · exact ⟨rfl, nofun⟩
    rw [Ref.decGo, Ref.decSeq]
    by_cases hc : c = 0x00
    · rw [if_pos hc, if_pos hc]; exact ⟨rfl, nofun⟩
    rw [if_neg hc, if_neg hc]
    by_cases hs : rest.length < c.toNat - 1
    · rw [if_pos hs, if_pos hs]; exact ⟨rfl, nofun⟩
    rw [if_neg hs, if_neg hs]
    have hc1 : 1 ≤ c.toNat := by
      rcases Nat.eq_zero_or_pos c.toNat with h0 | h0
      · exact absurd (BitVec.eq_of_toNat_eq (by simpa using h0)) hc
      · exact h0
    have htake : (rest.take (c.toNat - 1)).length = c.toNat - 1 := by rw [List.length_take]; omega
    simp only
    by_cases hff : c = 0xFF
    · rw [if_pos hff, if_pos hff]
      have := ih (rest.drop (c.toNat - 1)) (out ++ rest.take (c.toNat - 1)) (used + c.toNat)
      revert this
      split
      · rintro ⟨h1, h2, h3, h4⟩
        simp only [List.length_drop] at h4
        refine ⟨h1, by rw [h2, List.append_assoc], ?_, ?_⟩
        · simp only [List.length_append, htake]; omega
        · simp only [List.length_cons]; omega
      · exact id
    rw [if_neg hff, if_neg hff]
    rcases hd : rest.drop (c.toNat - 1) with _ | ⟨b, tail⟩
    · exact ⟨rfl, nofun⟩
    have hlen := congrArg List.length hd
    simp only [List.length_drop, List.length_cons] at hlen
    simp only
    by_cases hb : b = 0x00
    · rw [if_pos hb, if_pos hb]
      refine ⟨rfl, rfl, ?_, ?_⟩
      · simp only [htake]; omega
      · simp only [List.length_cons]; omega
    rw [if_neg hb, if_neg hb]
    have := ih (b :: tail) (out ++ rest.take (c.toNat - 1) ++ [0x00]) (used + c.toNat)
    revert this
    split
    · rintro ⟨h1, h2, h3, h4⟩
      simp only [List.length_cons] at h4
      refine ⟨h1, by rw [h2]; simp, ?_, ?_⟩
      · simp only [List.length_append, List.length_cons, htake]; omega
      · simp only [List.length_cons]; omega
    · exact id

/-- The reference decoder, read off its byte-sequential output. -/
theorem Ref.dec_ok {f out : List Byte} {used : Nat} (h : Ref.dec f = .ok (out, used)) :
    Ref.output f = (out, .ok) ∧ out.length + 2 ≤ used ∧ used ≤ f.length := by
  have := Ref.decGo_decSeq (f.length + 1) f [] 0
  unfold Ref.dec at h
  rw [h] at this
  obtain ⟨h1, h2, h3, h4⟩ := this
  rw [List.nil_append] at h2
  exact ⟨Prod.ext h2.symm h1, by rw [h2]; omega, by omega⟩

theorem Ref.dec_error {f : List Byte} {code : StatusCode} (h : Ref.dec f = .error code) :
    (Ref.output f).2 = code ∧ code ≠ .ok := by
  have := Ref.decGo_decSeq (f.length + 1) f [] 0
  unfold Ref.dec at h
  rw [h] at this
  exact this

/-- The reference decoder has no BufferTooSmall (R168). -/
theorem Ref.decSeq_not_tooSmall (F : Nat) : ∀ f : List Byte, (Ref.decSeq F f).2 ≠ .bufferTooSmall := by
  induction F with
  | zero => exact nofun
  | succ F ih =>
    intro f
    rcases f with _ | ⟨c, rest⟩
    · exact nofun
    rw [Ref.decSeq]
    split
    · exact nofun
    split
    · exact nofun
    simp only
    split
    · exact ih _
    split
    · exact nofun
    split
    · exact nofun
    · exact ih _

end Sys2Proof.Machine
end

