-- ==== Sys2Proof/Tests/Slice0.lean ====
section
/-! SUPPORT. The model's own tests: the words of the opcode table, the spec's test vectors, and a witness for the
hypotheses of every statement. Expected results come from spec/opcode_table.json and from 95_test_vectors.md, whose ids
the comments give. -/

set_option maxRecDepth 20000

namespace Sys2Proof.Tests

open Sys2Proof.Machine

/-! ### Well-formed terms -/

theorem test_wf_refuses_the_terminator_as_an_implied_zero : (Instr.fpImpliedZero 0x00).wf = false := by decide
theorem test_wf_accepts_an_implied_zero : (Instr.fpImpliedZero 0x01).wf = true ∧ (Instr.fpImpliedZero 0xFF).wf = true := by
  decide

/-! ### Decoding, against the words of the opcode table -/

/-- The opcode table's "encoding" column, rows 0x00 to 0x0F of the length-byte position. -/
def lengthWords0 : List (Byte × Instr) :=
  [(0b00000000, .lbInvalid), (0b00000001, .lb01), (0b00000010, .lb02), (0b00000011, .lb03),
   (0b00000100, .lb04), (0b00000101, .lb05), (0b00000110, .lb06), (0b00000111, .lb07),
   (0b00001000, .lb08), (0b00001001, .lb09), (0b00001010, .lb0A), (0b00001011, .lb0B),
   (0b00001100, .lb0C), (0b00001101, .lb0D), (0b00001110, .lb0E), (0b00001111, .lb0F)]

/-- The opcode table's "encoding" column, rows 0x10 to 0x1F of the length-byte position. -/
def lengthWords1 : List (Byte × Instr) :=
  [(0b00010000, .lb10), (0b00010001, .lb11), (0b00010010, .lb12), (0b00010011, .lb13),
   (0b00010100, .lb14), (0b00010101, .lb15), (0b00010110, .lb16), (0b00010111, .lb17),
   (0b00011000, .lb18), (0b00011001, .lb19), (0b00011010, .lb1A), (0b00011011, .lb1B),
   (0b00011100, .lb1C), (0b00011101, .lb1D), (0b00011110, .lb1E), (0b00011111, .lb1F)]

/-- The opcode table's "encoding" column, rows 0x20 to 0x2F of the length-byte position. -/
def lengthWords2 : List (Byte × Instr) :=
  [(0b00100000, .lb20), (0b00100001, .lb21), (0b00100010, .lb22), (0b00100011, .lb23),
   (0b00100100, .lb24), (0b00100101, .lb25), (0b00100110, .lb26), (0b00100111, .lb27),
   (0b00101000, .lb28), (0b00101001, .lb29), (0b00101010, .lb2A), (0b00101011, .lb2B),
   (0b00101100, .lb2C), (0b00101101, .lb2D), (0b00101110, .lb2E), (0b00101111, .lb2F)]

/-- The opcode table's "encoding" column, rows 0x30 to 0x3F of the length-byte position. -/
def lengthWords3 : List (Byte × Instr) :=
  [(0b00110000, .lb30), (0b00110001, .lb31), (0b00110010, .lb32), (0b00110011, .lb33),
   (0b00110100, .lb34), (0b00110101, .lb35), (0b00110110, .lb36), (0b00110111, .lb37),
   (0b00111000, .lb38), (0b00111001, .lb39), (0b00111010, .lb3A), (0b00111011, .lb3B),
   (0b00111100, .lb3C), (0b00111101, .lb3D), (0b00111110, .lb3E), (0b00111111, .lb3F)]

/-- The opcode table's "encoding" column, rows 0x40 to 0x4F of the length-byte position. -/
def lengthWords4 : List (Byte × Instr) :=
  [(0b01000000, .lb40), (0b01000001, .lb41), (0b01000010, .lb42), (0b01000011, .lb43),
   (0b01000100, .lb44), (0b01000101, .lb45), (0b01000110, .lb46), (0b01000111, .lb47),
   (0b01001000, .lb48), (0b01001001, .lb49), (0b01001010, .lb4A), (0b01001011, .lb4B),
   (0b01001100, .lb4C), (0b01001101, .lb4D), (0b01001110, .lb4E), (0b01001111, .lb4F)]

/-- The opcode table's "encoding" column, rows 0x50 to 0x5F of the length-byte position. -/
def lengthWords5 : List (Byte × Instr) :=
  [(0b01010000, .lb50), (0b01010001, .lb51), (0b01010010, .lb52), (0b01010011, .lb53),
   (0b01010100, .lb54), (0b01010101, .lb55), (0b01010110, .lb56), (0b01010111, .lb57),
   (0b01011000, .lb58), (0b01011001, .lb59), (0b01011010, .lb5A), (0b01011011, .lb5B),
   (0b01011100, .lb5C), (0b01011101, .lb5D), (0b01011110, .lb5E), (0b01011111, .lb5F)]

/-- The opcode table's "encoding" column, rows 0x60 to 0x6F of the length-byte position. -/
def lengthWords6 : List (Byte × Instr) :=
  [(0b01100000, .lb60), (0b01100001, .lb61), (0b01100010, .lb62), (0b01100011, .lb63),
   (0b01100100, .lb64), (0b01100101, .lb65), (0b01100110, .lb66), (0b01100111, .lb67),
   (0b01101000, .lb68), (0b01101001, .lb69), (0b01101010, .lb6A), (0b01101011, .lb6B),
   (0b01101100, .lb6C), (0b01101101, .lb6D), (0b01101110, .lb6E), (0b01101111, .lb6F)]

/-- The opcode table's "encoding" column, rows 0x70 to 0x7F of the length-byte position. -/
def lengthWords7 : List (Byte × Instr) :=
  [(0b01110000, .lb70), (0b01110001, .lb71), (0b01110010, .lb72), (0b01110011, .lb73),
   (0b01110100, .lb74), (0b01110101, .lb75), (0b01110110, .lb76), (0b01110111, .lb77),
   (0b01111000, .lb78), (0b01111001, .lb79), (0b01111010, .lb7A), (0b01111011, .lb7B),
   (0b01111100, .lb7C), (0b01111101, .lb7D), (0b01111110, .lb7E), (0b01111111, .lb7F)]

/-- The opcode table's "encoding" column, rows 0x80 to 0x8F of the length-byte position. -/
def lengthWords8 : List (Byte × Instr) :=
  [(0b10000000, .lb80), (0b10000001, .lb81), (0b10000010, .lb82), (0b10000011, .lb83),
   (0b10000100, .lb84), (0b10000101, .lb85), (0b10000110, .lb86), (0b10000111, .lb87),
   (0b10001000, .lb88), (0b10001001, .lb89), (0b10001010, .lb8A), (0b10001011, .lb8B),
   (0b10001100, .lb8C), (0b10001101, .lb8D), (0b10001110, .lb8E), (0b10001111, .lb8F)]

/-- The opcode table's "encoding" column, rows 0x90 to 0x9F of the length-byte position. -/
def lengthWords9 : List (Byte × Instr) :=
  [(0b10010000, .lb90), (0b10010001, .lb91), (0b10010010, .lb92), (0b10010011, .lb93),
   (0b10010100, .lb94), (0b10010101, .lb95), (0b10010110, .lb96), (0b10010111, .lb97),
   (0b10011000, .lb98), (0b10011001, .lb99), (0b10011010, .lb9A), (0b10011011, .lb9B),
   (0b10011100, .lb9C), (0b10011101, .lb9D), (0b10011110, .lb9E), (0b10011111, .lb9F)]

/-- The opcode table's "encoding" column, rows 0xA0 to 0xAF of the length-byte position. -/
def lengthWordsA : List (Byte × Instr) :=
  [(0b10100000, .lbA0), (0b10100001, .lbA1), (0b10100010, .lbA2), (0b10100011, .lbA3),
   (0b10100100, .lbA4), (0b10100101, .lbA5), (0b10100110, .lbA6), (0b10100111, .lbA7),
   (0b10101000, .lbA8), (0b10101001, .lbA9), (0b10101010, .lbAA), (0b10101011, .lbAB),
   (0b10101100, .lbAC), (0b10101101, .lbAD), (0b10101110, .lbAE), (0b10101111, .lbAF)]

/-- The opcode table's "encoding" column, rows 0xB0 to 0xBF of the length-byte position. -/
def lengthWordsB : List (Byte × Instr) :=
  [(0b10110000, .lbB0), (0b10110001, .lbB1), (0b10110010, .lbB2), (0b10110011, .lbB3),
   (0b10110100, .lbB4), (0b10110101, .lbB5), (0b10110110, .lbB6), (0b10110111, .lbB7),
   (0b10111000, .lbB8), (0b10111001, .lbB9), (0b10111010, .lbBA), (0b10111011, .lbBB),
   (0b10111100, .lbBC), (0b10111101, .lbBD), (0b10111110, .lbBE), (0b10111111, .lbBF)]

/-- The opcode table's "encoding" column, rows 0xC0 to 0xCF of the length-byte position. -/
def lengthWordsC : List (Byte × Instr) :=
  [(0b11000000, .lbC0), (0b11000001, .lbC1), (0b11000010, .lbC2), (0b11000011, .lbC3),
   (0b11000100, .lbC4), (0b11000101, .lbC5), (0b11000110, .lbC6), (0b11000111, .lbC7),
   (0b11001000, .lbC8), (0b11001001, .lbC9), (0b11001010, .lbCA), (0b11001011, .lbCB),
   (0b11001100, .lbCC), (0b11001101, .lbCD), (0b11001110, .lbCE), (0b11001111, .lbCF)]

/-- The opcode table's "encoding" column, rows 0xD0 to 0xDF of the length-byte position. -/
def lengthWordsD : List (Byte × Instr) :=
  [(0b11010000, .lbD0), (0b11010001, .lbD1), (0b11010010, .lbD2), (0b11010011, .lbD3),
   (0b11010100, .lbD4), (0b11010101, .lbD5), (0b11010110, .lbD6), (0b11010111, .lbD7),
   (0b11011000, .lbD8), (0b11011001, .lbD9), (0b11011010, .lbDA), (0b11011011, .lbDB),
   (0b11011100, .lbDC), (0b11011101, .lbDD), (0b11011110, .lbDE), (0b11011111, .lbDF)]

/-- The opcode table's "encoding" column, rows 0xE0 to 0xEF of the length-byte position. -/
def lengthWordsE : List (Byte × Instr) :=
  [(0b11100000, .lbE0), (0b11100001, .lbE1), (0b11100010, .lbE2), (0b11100011, .lbE3),
   (0b11100100, .lbE4), (0b11100101, .lbE5), (0b11100110, .lbE6), (0b11100111, .lbE7),
   (0b11101000, .lbE8), (0b11101001, .lbE9), (0b11101010, .lbEA), (0b11101011, .lbEB),
   (0b11101100, .lbEC), (0b11101101, .lbED), (0b11101110, .lbEE), (0b11101111, .lbEF)]

/-- The opcode table's "encoding" column, rows 0xF0 to 0xFF of the length-byte position. -/
def lengthWordsF : List (Byte × Instr) :=
  [(0b11110000, .lbF0), (0b11110001, .lbF1), (0b11110010, .lbF2), (0b11110011, .lbF3),
   (0b11110100, .lbF4), (0b11110101, .lbF5), (0b11110110, .lbF6), (0b11110111, .lbF7),
   (0b11111000, .lbF8), (0b11111001, .lbF9), (0b11111010, .lbFA), (0b11111011, .lbFB),
   (0b11111100, .lbFC), (0b11111101, .lbFD), (0b11111110, .lbFE), (0b11111111, .lbCont)]
/-- Each word decodes to its row at a length-byte position. -/
def readsAs (rows : List (Byte × Instr)) : Bool := rows.all fun p => decodeLengthByte p.1 == p.2

theorem test_decode_length_bytes_0x : readsAs lengthWords0 = true := by decide
theorem test_decode_length_bytes_1x : readsAs lengthWords1 = true := by decide
theorem test_decode_length_bytes_2x : readsAs lengthWords2 = true := by decide
theorem test_decode_length_bytes_3x : readsAs lengthWords3 = true := by decide
theorem test_decode_length_bytes_4x : readsAs lengthWords4 = true := by decide
theorem test_decode_length_bytes_5x : readsAs lengthWords5 = true := by decide
theorem test_decode_length_bytes_6x : readsAs lengthWords6 = true := by decide
theorem test_decode_length_bytes_7x : readsAs lengthWords7 = true := by decide
theorem test_decode_length_bytes_8x : readsAs lengthWords8 = true := by decide
theorem test_decode_length_bytes_9x : readsAs lengthWords9 = true := by decide
theorem test_decode_length_bytes_Ax : readsAs lengthWordsA = true := by decide
theorem test_decode_length_bytes_Bx : readsAs lengthWordsB = true := by decide
theorem test_decode_length_bytes_Cx : readsAs lengthWordsC = true := by decide
theorem test_decode_length_bytes_Dx : readsAs lengthWordsD = true := by decide
theorem test_decode_length_bytes_Ex : readsAs lengthWordsE = true := by decide
theorem test_decode_length_bytes_Fx : readsAs lengthWordsF = true := by decide

theorem test_decode_commands :
    decode .command [0b000] = .ok .len ∧ decode .command [0b001] = .ok .enc ∧ decode .command [0b010] = .ok .dec ∧
    decode .command [0b011] = .ok .deci ∧ decode .command [0b100] = .ok .encsStart ∧
    decode .command [0b101] = .ok .encsNext ∧ decode .command [0b110] = .ok .reserved110 ∧
    decode .command [0b111] = .ok .reserved111 := by decide

theorem test_decode_follow_positions :
    decode .follow [0b00000000] = .ok .fpTerm ∧ decode .follow [0b00000001] = .ok (.fpImpliedZero 0b00000001) ∧
    decode .follow [0b11111111] = .ok (.fpImpliedZero 0b11111111) := by decide

theorem test_decode_statuses :
    decode .status [0b00] = .ok .statusOk ∧ decode .status [0b01] = .ok .statusBufferTooSmall ∧
    decode .status [0b10] = .ok .statusTruncatedFrame ∧ decode .status [0b11] = .ok .statusInvalidLengthByte := by decide

/-- A value wider than its space, and no byte at all, are no words. -/
theorem test_decode_rejects_by_name :
    decode .command [0b1000] = .error (.wordTooWide 0b1000) ∧ decode .status [0b100] = .error (.wordTooWide 0b100) ∧
    decode .command [] = .error .noByte ∧ decode .lengthByte [] = .error .noByte := by decide

/-! ### States to run on -/

/-- A state with a sequence of bytes at the start of a buffer, as long as `ARG_LEN` says, and a capacity. -/
def holding (b : Buffer) (bytes : List Byte) (cap : Nat) : State :=
  { State.reset with
    argLen := bytes.length
    dstCap := cap
    mem := Memory.store [] (State.reset.addr b 0) bytes
    specified := ⟨true, true, false, false, false, false⟩ }

/-- A decode of a sequence of bytes, between two of its steps. -/
def inside (form : DecodeForm) (bytes : List Byte) (cap r w : Nat) (stage : DecodeAt) : State :=
  { holding form.source bytes cap with job := some ⟨form, bytes.length, cap, r, w, stage⟩ }

/-- The decode in progress in such a state. -/
def jobOf (form : DecodeForm) (bytes : List Byte) (cap r w : Nat) (stage : DecodeAt) : Job :=
  ⟨form, bytes.length, cap, r, w, stage⟩

/-- A message of one byte at the start of `SRC`, with room for its frame and no more. -/
def oneByte : State := holding .src [0x11] 3

/-- The host's script. -/
def thenHost (s : State) (script : List HostAction) : State := { s with host := script }

/-- A lazy sequence over a message, at a point of it. -/
def sequenceAt (msg : List Byte) (it : Iter) : State := { holding .src msg 0 with iter := it }

/-- `nz(k)` of 95_test_vectors.md. -/
def nz (k : Nat) : List Byte := (List.range k).map fun i => BitVec.ofNat 8 (i % 255 + 1)

/-- The outcome is a next state with a property. -/
def leads (o : Host.Outcome State Fault Refusal) (p : State → Bool) : Bool :=
  match o with
  | .next t => p t
  | .fault _ => false
  | .refused _ => false

theorem next_of_leads {o : Host.Outcome State Fault Refusal} (h : leads o (fun _ => true) = true) : ∃ t, o = .next t := by
  cases o with
  | next t => exact ⟨t, rfl⟩
  | fault f => cases h
  | refused r => cases h

/-- The outcome is that refusal. -/
def refuses (o : Host.Outcome State Fault Refusal) (r : Refusal) : Bool :=
  match o with
  | .next _ => false
  | .fault _ => false
  | .refused r' => r' == r

/-! ### One command -/

/-- V-L1, V-L6. -/
theorem test_len_empty : leads (exec .len (holding .src [] 0)) (fun t => t.rlen == 2 && t.status == 0) = true := by decide
theorem test_len_255 :
    leads (exec .len (holding .src (nz 255) 0)) (fun t => t.rlen == 258 && t.status == 0) = true := by decide

/-- V-E8: a zero in the middle. -/
theorem test_enc_zero_in_the_middle :
    leads (exec .enc (holding .src [0x11, 0x22, 0x00, 0x33] 6)) (fun t => t.status == 0 && t.rlen == 6 &&
      t.mem.slice (t.addr .dst 0) 6 == [0x03, 0x11, 0x22, 0x02, 0x33, 0x00]) = true := by decide
/-- V-C6. -/
theorem test_enc_too_small :
    leads (exec .enc (holding .src [0x11, 0x00, 0x22] 3)) (fun t => t.status == 1 &&
      t.mem.slice (t.addr .dst 0) 4 == [0x02, 0x11, 0x02, 0x00]) = true := by decide

/-- V-D21. -/
theorem test_dec_message :
    leads (exec .dec (holding .src [0x03, 0x11, 0x22, 0x02, 0x33, 0x00] 4)) (fun t => t.status == 0 && t.rlen == 4 &&
      t.mem.slice (t.addr .dst 0) 4 == [0x11, 0x22, 0x00, 0x33] && t.job == none) = true := by decide
/-- V-D16: the capacity is met before the truncation. -/
theorem test_dec_capacity_first :
    leads (exec .dec (holding .src [0x05, 0x11, 0x22] 1)) (fun t => t.status == 1 && t.job == none) = true := by decide

/-- V-I5. -/
theorem test_deci_message :
    leads (exec .deci (holding .buf [0x03, 0x11, 0x22, 0x02, 0x33, 0x00] 0)) (fun t => t.status == 0 && t.rlen == 4 &&
      t.mem.slice (t.addr .buf 0) 6 == [0x11, 0x22, 0x00, 0x33, 0x33, 0x00]) = true := by decide
/-- V-I6: the tightest case of the cursors. -/
theorem test_deci_tightest :
    leads (exec .deci (holding .buf [0x01, 0x01, 0x01, 0x00] 0)) (fun t => t.status == 0 && t.rlen == 2 &&
      t.mem.slice (t.addr .buf 0) 4 == [0x00, 0x00, 0x01, 0x00]) = true := by decide

/-- V-S1, its first line. -/
theorem test_encsStart :
    leads (exec .encsStart (holding .src [0x11, 0x00, 0x22] 0)) (fun t => t.status == 0 &&
      t.iter == ⟨3, 0, 0, .fin, .head⟩) = true := by decide
/-- V-S1, its third line: the data byte, and the zero behind it consumed. -/
theorem test_encsNext_consumes_the_zero :
    leads (exec .encsNext (sequenceAt [0x11, 0x00, 0x22] ⟨3, 0, 1, .zero, .data⟩)) (fun t => t.svalid && t.sdata == 0x11 &&
      t.iter == ⟨3, 2, 0, .zero, .head⟩) = true := by decide
/-- V-S4: no sequence is open after reset. -/
theorem test_encsNext_after_reset :
    leads (exec .encsNext State.reset) (fun t => !t.svalid && t.status == 0 && t.iter.phase == .done) = true := by decide

/-- R234: after reset neither operand register has been written; a write of `ARG_LEN` is enough for `LEN`, not for `ENC`. -/
theorem test_unwritten_operands_are_refused :
    refuses (exec .len State.reset) .operandUnspecified = true ∧
    refuses (exec .deci State.reset) .operandUnspecified = true ∧
    refuses (exec .enc { oneByte with specified := { Marks.unset with argLen := true } }) .operandUnspecified = true ∧
    leads (Host.Core.run Sys2Proof.core 2 (thenHost State.reset [.writeReg .argLen 3, .writeReg .cmd 0]))
      (fun t => t.rlen == 5) = true := by decide

theorem test_reserved : refuses (exec .reserved110 State.reset) .reservedCommand = true ∧
    refuses (exec .reserved111 State.reset) .reservedCommand = true := by decide

/-! ### One row inside a decode -/

/-- R84: 2 data bytes, then the follow position. -/
theorem test_lb03 :
    leads (exec .lb03 (inside .dec [0x03, 0x11, 0x22, 0x00] 4 0 0 .lengthByte)) (fun t =>
      t.job == some (jobOf .dec [0x03, 0x11, 0x22, 0x00] 4 3 2 .follow) &&
      t.mem.slice (t.addr .dst 0) 2 == [0x11, 0x22]) = true := by decide
/-- R84: the empty block writes nothing. -/
theorem test_lb01 :
    leads (exec .lb01 (inside .dec [0x01, 0x00] 0 0 0 .lengthByte)) (fun t =>
      t.job == some (jobOf .dec [0x01, 0x00] 0 1 0 .follow)) = true := by decide
/-- V-D26, its first block: no follow position behind a continuation block. -/
theorem test_lbCont :
    leads (exec .lbCont (inside .dec ((0xFF : Byte) :: nz 254 ++ [0x00]) 600 0 0 .lengthByte)) (fun t =>
      t.job == some (jobOf .dec ((0xFF : Byte) :: nz 254 ++ [0x00]) 600 255 254 .lengthByte)) = true := by decide
/-- V-D2. -/
theorem test_lbInvalid :
    leads (exec .lbInvalid (inside .dec [0x00] 4 0 0 .lengthByte)) (fun t =>
      t.job == some (jobOf .dec [0x00] 4 1 0 (.ended .invalidLengthByte))) = true := by decide
/-- V-D4, its second step. -/
theorem test_fpTerm :
    leads (exec .fpTerm (inside .dec [0x01, 0x00] 0 1 0 .follow)) (fun t =>
      t.job == some (jobOf .dec [0x01, 0x00] 0 2 0 (.ended .ok))) = true := by decide
/-- V-I4, its implied zero: at `w = 1`, `r = 2` the follow byte is not overwritten. -/
theorem test_fpImpliedZero :
    leads (exec (.fpImpliedZero 0x02) (inside .deci [0x02, 0x11, 0x02, 0x22, 0x00] 5 2 1 .follow)) (fun t =>
      t.job == some (jobOf .deci [0x02, 0x11, 0x02, 0x22, 0x00] 5 2 2 .lengthByte) &&
      t.mem.slice (t.addr .buf 0) 5 == [0x02, 0x00, 0x02, 0x22, 0x00]) = true := by decide
theorem test_statusOk :
    leads (exec .statusOk (inside .dec [0x01, 0x00] 4 2 3 (.ended .ok))) (fun t =>
      t.job == none && t.status == 0 && t.rlen == 3) = true := by decide
theorem test_statusBufferTooSmall :
    leads (exec .statusBufferTooSmall (inside .dec [] 0 0 0 (.ended .bufferTooSmall))) (fun t =>
      t.job == none && t.status == 1 && !t.specified.rlen) = true := by decide
theorem test_statusTruncatedFrame :
    leads (exec .statusTruncatedFrame (inside .dec [] 0 0 0 (.ended .truncatedFrame))) (fun t =>
      t.job == none && t.status == 2 && !t.specified.rlen) = true := by decide
theorem test_statusInvalidLengthByte :
    leads (exec .statusInvalidLengthByte (inside .dec [] 0 0 0 (.ended .invalidLengthByte))) (fun t =>
      t.job == none && t.status == 3 && !t.specified.rlen) = true := by decide
/-- A row runs at its own position only (log 19). -/
theorem test_rows_out_of_position :
    refuses (exec .lb02 State.reset) .notAtPosition = true ∧
    refuses (exec .fpTerm (inside .dec [0x01, 0x00] 0 0 0 .lengthByte)) .notAtPosition = true ∧
    refuses (exec .statusOk (inside .dec [] 0 0 0 (.ended .truncatedFrame))) .notAtPosition = true := by decide

/-! ### Running a word of the opcode table first after reset -/

theorem test_table_word_runs_a_command :
    decodeTableWord 8 0b100 = some .encsStart ∧
    leads (step (State.reset.withFetchWord 8 0b100)) (fun t => t.iter.phase == .head) = true := by decide
theorem test_table_word_runs_a_command_with_operands :
    decodeTableWord 8 0b000 = some .len ∧ leads (step (State.reset.withFetchWord 8 0b000)) (fun t => t.rlen == 2) = true := by
  decide
theorem test_table_word_runs_a_length_byte :
    decodeTableWord 8 0x22 = some .lb22 ∧
    leads (step (State.reset.withFetchWord 8 0x22)) (fun t => t.job == some ⟨.dec, 256, 255, 0x22, 0x21, .follow⟩) = true := by
  decide

/-! ### The host -/

/-- R25, R36. -/
theorem test_host_reads_of_command_and_iterator :
    refuses (step (thenHost State.reset [.readReg .cmd])) .registerNotReadable = true ∧
    refuses (step (thenHost State.reset [.readReg .iter])) .registerNotReadable = true := by decide
theorem test_host_reads_status :
    leads (step (thenHost { State.reset with status := 2 } [.readReg .status])) (fun t => t.hostData == 2) = true := by decide
theorem test_host_writes_a_wide_value :
    refuses (step (thenHost State.reset [.writeReg .argLen 4294967296])) .valueTooWide = true ∧
    leads (step (thenHost State.reset [.writeReg .argLen 4294967295])) (fun t => t.argLen == 4294967295) = true := by decide
theorem test_host_poke_keeps_memory_canonical :
    leads (step (thenHost (holding .src [0x05] 0) [.poke .src 0 0x00])) (fun t => t.mem == []) = true := by decide

/-! ### Witnesses: a state and operands that meet all the hypotheses of each statement, clause by clause -/

/-- `OperandsLegal` as a computation. -/
def operandsLegal (s : State) : Bool :=
  s.specified.argLen && s.specified.dstCap && !s.buffersOverlap && !s.touchesDevice .src s.argLen && !s.touchesDevice .dst s.dstCap

theorem legal_of {s : State} (h : operandsLegal s = true) : s.OperandsLegal := by
  unfold operandsLegal at h
  simp only [Bool.and_eq_true, Bool.not_eq_true'] at h
  exact ⟨h.1.1.1.1, h.1.1.1.2, h.1.1.2, h.1.2, h.2⟩

/-- The longest raw message, and one byte more. -/
def longest : State := { holding .src [] 0 with argLen := 4278124285 }
def tooLong : State := { holding .src [] 0 with argLen := 4278124286 }

/-- A state with a window whose reads have side effects at the start of a buffer. -/
def onDevice (b : Buffer) : State :=
  { holding b [0x01, 0x00] 1 with place := { State.reset.place with devices := [(State.reset.addr b 0, 1)] } }

theorem witness_ResetIdlesTheEngine :
    (thenHost State.reset [.reset]).host = .reset :: [] ∧ (thenHost State.reset [.reset]).mem.wf = true := by decide
theorem witness_ResetIdlesTheEngine_inside_a_decode :
    let s := thenHost (inside .deci [0x02, 0x11, 0x00] 3 2 1 .follow) [.reset]
    s.host = .reset :: [] ∧ s.mem.wf = true ∧ s.job ≠ none := by decide

theorem witness_ResetDuringACommandFreesItsDestination_enc :
    let s := thenHost oneByte [.resetDuring 1]
    s.job = none ∧ s.host = .resetDuring 1 :: [] ∧ s.mem.wf = true ∧ s.OperandsLegal ∧ s.argLen ≤ s.cfg.nMax :=
  ⟨rfl, rfl, (by decide : oneByte.mem.wf = true), legal_of (by decide : operandsLegal oneByte = true),
    (by decide : oneByte.argLen ≤ oneByte.cfg.nMax)⟩
/-- `DEC` accepts a length beyond `N_MAX` (R94). -/
theorem witness_ResetDuringACommandFreesItsDestination_dec :
    let s := thenHost { tooLong with dstCap := 1 } [.resetDuring 2]
    s.job = none ∧ s.host = .resetDuring 2 :: [] ∧ s.mem.wf = true ∧ s.OperandsLegal ∧ s.cfg.nMax < s.argLen :=
  ⟨rfl, rfl, by decide, legal_of (by decide), by decide⟩
/-- `DECI` ignores a `DST_CAP` nothing has written (R160). -/
theorem witness_ResetDuringACommandFreesItsDestination_deci :
    let s := thenHost { oneByte with specified := { Marks.unset with argLen := true } } [.resetDuring 3]
    s.job = none ∧ s.host = .resetDuring 3 :: [] ∧ s.mem.wf = true ∧ s.InPlaceLegal :=
  ⟨rfl, rfl, by decide, rfl, by decide⟩
theorem witness_ResetDuringACommandFreesItsDestination_length (code : Nat) (h : code = 0 ∨ code = 4) :
    let s := thenHost oneByte [.resetDuring code]
    s.job = none ∧ s.host = .resetDuring code :: [] ∧ (code = 0 ∨ code = 4) ∧ s.LengthLegal :=
  ⟨rfl, rfl, h, rfl, (by decide : oneByte.argLen ≤ oneByte.cfg.nMax)⟩
theorem witness_ResetDuringACommandFreesItsDestination_sequence :
    let s := thenHost (sequenceAt [0x11] ⟨1, 0, 1, .fin, .data⟩) [.resetDuring 5]
    s.job = none ∧ s.host = .resetDuring 5 :: [] ∧ s.iter.phase = .data ∧ s.touchesDevice .src s.iter.n = false := by
  decide

theorem witness_StepKeepsMemoryCanonical :
    (thenHost oneByte [.poke .src 0 0x00]).mem.wf = true ∧ ∃ t, step (thenHost oneByte [.poke .src 0 0x00]) = .next t :=
  ⟨by decide, next_of_leads (by decide)⟩
theorem witness_StepKeepsLengthsInWidth :
    (thenHost longest [.writeReg .cmd 0]).lengthsFit = true ∧ ∃ t, step (thenHost longest [.writeReg .cmd 0]) = .next t :=
  ⟨by decide, next_of_leads (by decide)⟩
theorem witness_StepKeepsDecoderCursorsOrdered :
    (inside .deci [0x02, 0x11, 0x00] 3 2 1 .follow).cursorsOrdered = true ∧
    ∃ t, step (inside .deci [0x02, 0x11, 0x00] 3 2 1 .follow) = .next t :=
  ⟨by decide, next_of_leads (by decide)⟩

/-- A sequence at its first data byte, the host about to take it. -/
def atData : State := thenHost (sequenceAt [0x11, 0x00, 0x22] ⟨3, 0, 1, .zero, .data⟩) [.writeReg .cmd 5]

theorem witness_StepKeepsTheIteratorInvariants :
    atData.iter.sound = true ∧ atData.cursorsOrdered = true ∧ atData.mem.wf = true ∧ atData.BlockNonZero ∧
      atData.jobSparesBorrowed = true ∧ atData.hostDuty = true ∧ ∃ t, step atData = .next t := by
  refine ⟨by decide, by decide, by decide, ?_, by decide, by decide, next_of_leads (by decide)⟩
  intro _ k hk
  obtain rfl : k = 0 := Nat.lt_one_iff.mp hk
  decide

theorem witness_StepNeverChangesTheParameters : ∃ t, step atData = .next t := next_of_leads (by decide)
theorem witness_StepRunsTheIssuedCommand (v : Nat) (h : v = 0 ∨ v = 7) :
    (thenHost State.reset [.writeReg .cmd v]).job = none ∧
      (thenHost State.reset [.writeReg .cmd v]).host = .writeReg .cmd v :: [] ∧ v < 8 := ⟨rfl, rfl, by omega⟩

theorem witness_StepRunsTheRowAtTheCursor_lengthByte :
    let j := jobOf .dec [0x01] 0 0 0 .lengthByte
    let s := inside .dec [0x01] 0 0 0 .lengthByte
    s.job = some j ∧ s.resetPending = false ∧ j.stage = .lengthByte ∧ j.r < j.len := by decide
theorem witness_StepRunsTheRowAtTheCursor_follow :
    let j := jobOf .dec [0x01, 0x00] 0 1 0 .follow
    let s := inside .dec [0x01, 0x00] 0 1 0 .follow
    s.job = some j ∧ s.resetPending = false ∧ j.stage = .follow ∧ j.r < j.len := by decide
theorem witness_StepRunsTheRowAtTheCursor_ended :
    let j := jobOf .dec [0x01, 0x00] 0 2 0 (.ended .ok)
    let s := inside .dec [0x01, 0x00] 0 2 0 (.ended .ok)
    s.job = some j ∧ s.resetPending = false ∧ j.stage = .ended .ok := by decide
theorem witness_StepAtTheInputsEndRaisesTruncatedFrame (stage : DecodeAt) (h : stage = .lengthByte ∨ stage = .follow) :
    let j := jobOf .dec [0x01] 0 1 0 stage
    let s := inside .dec [0x01] 0 1 0 stage
    s.job = some j ∧ s.resetPending = false ∧ j.len ≤ j.r ∧ (j.stage = .lengthByte ∨ j.stage = .follow) :=
  ⟨rfl, rfl, Nat.le_refl _, h⟩
theorem witness_IdleBlockWaits : State.reset.job = none ∧ State.reset.host = [] := by decide

theorem witness_DecodeInOneTransitionIsItsSteps_dec :
    let s := thenHost (holding .src [0x01, 0x01, 0x00] 1) [.issueByBlock 2]
    s.job = none ∧ (thenHost s []).resetPending = false ∧ s.host = .issueByBlock 2 :: [] ∧
      ∃ t, exec .dec (thenHost s []) = .next t := ⟨rfl, rfl, rfl, next_of_leads (by decide)⟩
theorem witness_DecodeInOneTransitionIsItsSteps_deci :
    let s := thenHost (holding .buf [0x01, 0x01, 0x00] 0) [.issueByBlock 3]
    s.job = none ∧ (thenHost s []).resetPending = false ∧ s.host = .issueByBlock 3 :: [] ∧
      ∃ t, exec .deci (thenHost s []) = .next t := ⟨rfl, rfl, rfl, next_of_leads (by decide)⟩

theorem witness_DecodeOfEncodeIsTheInstruction :
    Instr.len.wf = true ∧ Instr.lbCont.wf = true ∧ (Instr.fpImpliedZero 0xFF).wf = true ∧ Instr.statusOk.wf = true := by decide
theorem witness_EncodeOfDecodeIsTheWord :
    decode .command (0x07 :: []) = .ok .reserved111 ∧ decode .lengthByte (0xFF :: [0x00]) = .ok .lbCont ∧
    decode .follow (0xFF :: []) = .ok (.fpImpliedZero 0xFF) ∧
    decode .status (0x03 :: []) = .ok .statusInvalidLengthByte := by decide

theorem witness_LenPostsTheFormula :
    longest.LengthLegal ∧ tooLong.specified.argLen = true ∧ tooLong.cfg.nMax < tooLong.argLen :=
  ⟨⟨rfl, by decide⟩, rfl, by decide⟩

theorem ones_nonzero (n : Nat) : ∀ b ∈ List.replicate n (0x01 : Byte), b ≠ 0 := by
  intro b hb
  rw [List.eq_of_mem_replicate hb]
  decide
theorem witness_EncodingHasItsExactLength : ∀ b ∈ List.replicate 254 (0x01 : Byte), b ≠ 0 := ones_nonzero 254
theorem witness_EncodingLengthHasTrueBounds :
    (List.replicate 254 (0x01 : Byte)).length = 254 ∧ ∀ b ∈ List.replicate 254 (0x01 : Byte), b ≠ 0 :=
  ⟨List.length_replicate, ones_nonzero 254⟩
theorem witness_LenFallsShortOnlyAtZeroFreeMultiplesOf254_multiple :
    let m := List.replicate 254 (0x01 : Byte)
    254 ≤ m.length ∧ 254 ∣ m.length ∧ ∀ b ∈ m, b ≠ 0 := by
  intro m
  have h : m.length = 254 := List.length_replicate
  exact ⟨by omega, by rw [h], ones_nonzero 254⟩
theorem witness_LenFallsShortOnlyAtZeroFreeMultiplesOf254_other :
    let m := List.replicate 253 (0x01 : Byte)
    m ≠ [] ∧ ¬ 254 ∣ m.length ∧ ∀ b ∈ m, b ≠ 0 := by
  intro m
  have h : m.length = 253 := List.length_replicate
  exact ⟨fun h' => by rw [h'] at h; simp at h, by rw [h]; decide, ones_nonzero 253⟩

theorem witness_EncodingsAreTheWellFormedFrames_same : Ref.enc [0x00] = Ref.enc [0x00] := rfl
theorem witness_EncodingsAreTheWellFormedFrames_frame : Ref.IsFrame [0x01, 0x00] :=
  ⟨[0x01], .last 0x01 [] rfl (by decide) nofun, rfl⟩
/-- V-D13: a zero among the data bytes. -/
theorem witness_EncodingsAreTheWellFormedFrames_other :
    ¬ Ref.IsFrame [0x02, 0x00, 0x00] ∧ Ref.dec [0x02, 0x00, 0x00] = .ok ([0x00], 3) := by
  refine ⟨?_, rfl⟩
  rintro ⟨bs, hbs, he⟩
  have h2 : bs = [0x02, 0x00] := by
    have h3 : ([0x02, 0x00] : List Byte) ++ [0x00] = bs ++ [0x00] := he
    exact (List.append_cancel_right h3).symm
  have hz : ∀ l : List Byte, Ref.IsBlocks l → ∀ b ∈ l, b ≠ 0 := by
    intro l hl
    induction hl with
    | last c d hc _ hd =>
      intro b hb
      rcases List.mem_cons.mp hb with rfl | hb
      · intro h; rw [h] at hc; simp at hc
      · exact hd b hb
    | bounded c d rest hc _ hd _ ih =>
      intro b hb
      rcases List.mem_cons.mp hb with rfl | hb
      · intro h; rw [h] at hc; simp at hc
      · rcases List.mem_append.mp hb with hb | hb
        · exact hd b hb
        · exact ih b hb
    | cont d rest _ hd _ ih =>
      intro b hb
      rcases List.mem_cons.mp hb with rfl | hb
      · decide
      · rcases List.mem_append.mp hb with hb | hb
        · exact hd b hb
        · exact ih b hb
  rw [h2] at hbs
  exact hz _ hbs 0x00 (by decide) rfl
theorem witness_DecodedMessageIsTwoBytesShorter : Ref.dec [0x01, 0x00] = .ok ([], 2) := rfl

theorem witness_EncWritesTheFrame :
    oneByte.mem.wf = true ∧ oneByte.argLen ≤ oneByte.cfg.nMax ∧ oneByte.OperandsLegal ∧
      (Ref.enc (oneByte.input .src)).length ≤ oneByte.dstCap :=
  ⟨by decide, by decide, legal_of (by decide), by decide⟩
theorem witness_EncFailsExactlyBelowTheNeed (cap : Nat) (h : cap = 0 ∨ cap = 1 ∨ cap = 2 ∨ cap = 3) :
    let s := holding .src [0x11] cap
    s.mem.wf = true ∧ s.argLen ≤ s.cfg.nMax ∧ s.OperandsLegal := by
  rcases h with rfl | rfl | rfl | rfl <;> exact ⟨by decide, by decide, legal_of (by decide)⟩
theorem witness_FailedEncLeavesAPrefix :
    let s := holding .src [0x11] 2
    s.mem.wf = true ∧ s.argLen ≤ s.cfg.nMax ∧ s.OperandsLegal ∧ s.dstCap < (Ref.enc (s.input .src)).length ∧
      s.cfg.failedDest = .written :=
  ⟨by decide, by decide, legal_of (by decide), by decide, rfl⟩

theorem witness_EncsStartBindsAndRewinds :
    longest.LengthLegal ∧ tooLong.specified.argLen = true ∧ tooLong.cfg.nMax < tooLong.argLen :=
  ⟨⟨rfl, by decide⟩, rfl, by decide⟩
theorem witness_EncsNextYieldsALengthByteInHead :
    let s := sequenceAt [0x11] ⟨1, 1, 0, .fin, .head⟩
    s.iter.phase = .head ∧ s.iter.pos ≤ s.iter.n ∧ s.touchesDevice .src s.iter.n = false := by decide
theorem witness_EncsNextYieldsADataByteInData :
    atData.iter.phase = .data ∧ atData.touchesDevice .src atData.iter.n = false := by decide
theorem witness_EncsNextYieldsTheTerminatorInTerm : (sequenceAt [0x11] ⟨1, 1, 0, .fin, .term⟩).iter.phase = .term := rfl
theorem witness_EncsNextYieldsNothingWhenDone : State.reset.iter.phase = .done := rfl
theorem witness_LazySequenceYieldsTheFrame :
    longest.LengthLegal ∧ longest.touchesDevice .src longest.argLen = false := ⟨⟨rfl, by decide⟩, by decide⟩

theorem witness_DecIsTheReferenceDecoderCutAtItsCapacity :
    let s := holding .src [0x05, 0x11, 0x22] 1
    s.mem.wf = true ∧ s.OperandsLegal := ⟨by decide, legal_of (by decide)⟩
/-- V-D5 and V-D6: the capacity the message needs, and one byte less. -/
theorem witness_DecSucceedsExactlyWhenTheMessageFits (cap : Nat) (h : cap = 0 ∨ cap = 1) :
    let s := holding .src [0x01, 0x01, 0x00] cap
    s.mem.wf = true ∧ s.OperandsLegal ∧ Ref.dec (s.input .src) = .ok ([0x00], 3) := by
  rcases h with rfl | rfl <;> exact ⟨by decide, legal_of (by decide), rfl⟩
theorem witness_DecNeverTooSmallWithOneByteLess :
    let s := holding .src [0x05, 0x11, 0x22] 2
    s.mem.wf = true ∧ s.OperandsLegal ∧ s.argLen ≤ s.dstCap + 1 := ⟨by decide, legal_of (by decide), by decide⟩
theorem witness_DeciLeavesTheMessageAndTheRestAlone :
    let s := holding .buf [0x01, 0x01, 0x00] 0
    s.mem.wf = true ∧ s.InPlaceLegal ∧ Ref.dec (s.input .buf) = .ok ([0x00], 3) :=
  ⟨by decide, ⟨rfl, by decide⟩, rfl⟩
theorem witness_DeciNeverTooSmall :
    let s := holding .buf [0x01, 0x00] 0
    s.mem.wf = true ∧ s.InPlaceLegal := ⟨by decide, rfl, by decide⟩
theorem witness_FailedDeciLeavesAPrefix :
    let s := holding .buf [0x05, 0x11, 0x22] 0
    s.mem.wf = true ∧ s.InPlaceLegal ∧ Ref.dec (s.input .buf) = .error .truncatedFrame ∧
      s.cfg.failedDest = .written := ⟨by decide, ⟨rfl, by decide⟩, rfl, rfl⟩
theorem witness_DecAndDeciAgree_message :
    let s := holding .src [0x01, 0x01, 0x00] 1
    let u := holding .buf [0x01, 0x01, 0x00] 0
    s.mem.wf = true ∧ u.mem.wf = true ∧ s.OperandsLegal ∧ u.InPlaceLegal ∧ s.argLen = u.argLen ∧
      s.input .src = u.input .buf ∧ Ref.dec (s.input .src) = .ok ([0x00], 3) ∧ [(0x00 : Byte)].length ≤ s.dstCap :=
  ⟨by decide, by decide, legal_of (by decide), ⟨rfl, by decide⟩, by decide, by decide, rfl, by decide⟩
theorem witness_DecAndDeciAgree_failure :
    let s := holding .src [0x05, 0x11] 2
    let u := holding .buf [0x05, 0x11] 0
    s.mem.wf = true ∧ u.mem.wf = true ∧ s.OperandsLegal ∧ u.InPlaceLegal ∧ s.argLen = u.argLen ∧
      s.input .src = u.input .buf ∧ Ref.dec (s.input .src) = .error .truncatedFrame ∧ s.argLen ≤ s.dstCap :=
  ⟨by decide, by decide, legal_of (by decide), ⟨rfl, by decide⟩, by decide, by decide, rfl, by decide⟩
theorem witness_DeciOfAnEncodingGivesTheMessage :
    let s := holding .buf [0x01, 0x01, 0x00] 0
    s.mem.wf = true ∧ s.InPlaceLegal ∧ s.argLen = (Ref.enc [0x00]).length ∧
      s.mem.Holds (s.addr .buf 0) (Ref.enc [0x00]) := ⟨by decide, ⟨rfl, by decide⟩, by decide, by unfold Memory.Holds; decide⟩
/-- Two states with the same operands and input bytes, and other registers. -/
theorem witness_ResultsDependOnOperandsAndInputAlone :
    let s := holding .src [0x01, 0x01, 0x00] 5
    let u := { s with rlen := 7, status := 3 }
    (s.argLen ≤ s.cfg.nMax ∧ u.argLen ≤ u.cfg.nMax) ∧ (s.OperandsLegal ∧ u.OperandsLegal) ∧
      (s.InPlaceLegal ∧ u.InPlaceLegal) ∧
      s.mem.wf = true ∧ u.mem.wf = true ∧ s.argLen = u.argLen ∧ s.dstCap = u.dstCap ∧
      s.input .src = u.input .src ∧ s.input .buf = u.input .buf :=
  ⟨by decide, ⟨legal_of (by decide), legal_of (by decide)⟩, ⟨⟨rfl, by decide⟩, rfl, by decide⟩, by decide, by decide, by decide,
    by decide, by decide, by decide⟩

/-- The shortest and the longest bounded block, each with no byte to spare in the input and in the destination. -/
theorem witness_BoundedRowsCopyTheirDataBytes_shortest :
    let j := jobOf .dec [0x01] 0 0 0 .lengthByte
    let s := inside .dec [0x01] 0 0 0 .lengthByte
    Instr.lb01.lengthValue? = some 0x01 ∧ s.job = some j ∧ j.stage = .lengthByte ∧ s.mem.wf = true ∧
      Job.Apart (j.srcBase s) (j.dstBase s) j.len j.cap j.r j.w ∧
      j.r + (0x01 : Byte).toNat ≤ j.len ∧ j.w + ((0x01 : Byte).toNat - 1) ≤ j.cap :=
  ⟨by decide, rfl, rfl, by decide, .inl (by decide), by decide, by decide⟩
theorem witness_BoundedRowsCopyTheirDataBytes_longest :
    let j := jobOf .deci (0xFE :: nz 253) 253 0 0 .lengthByte
    let s := inside .deci (0xFE :: nz 253) 253 0 0 .lengthByte
    Instr.lbFE.lengthValue? = some 0xFE ∧ s.job = some j ∧ j.stage = .lengthByte ∧ s.mem.wf = true ∧
      Job.Apart (j.srcBase s) (j.dstBase s) j.len j.cap j.r j.w ∧
      j.r + (0xFE : Byte).toNat ≤ j.len ∧ j.w + ((0xFE : Byte).toNat - 1) ≤ j.cap :=
  ⟨by decide, rfl, rfl, by decide, .inr ⟨rfl, Nat.le_refl _⟩, by decide, by decide⟩
theorem witness_ContinuationRowGoesToALengthByte :
    let j := jobOf .dec (0xFF :: nz 254) 254 0 0 .lengthByte
    let s := inside .dec (0xFF :: nz 254) 254 0 0 .lengthByte
    s.job = some j ∧ j.stage = .lengthByte ∧ s.mem.wf = true ∧
      Job.Apart (j.srcBase s) (j.dstBase s) j.len j.cap j.r j.w ∧ j.r + 255 ≤ j.len ∧ j.w + 254 ≤ j.cap :=
  ⟨rfl, rfl, by decide, .inl (by decide), by decide, by decide⟩
/-- V-D17: the input ends inside the block. -/
theorem witness_BlocksCutShortRaiseTheFirstFailureMet_input :
    let j := jobOf .dec [0x05, 0x11, 0x22] 2 0 0 .lengthByte
    let s := inside .dec [0x05, 0x11, 0x22] 2 0 0 .lengthByte
    Instr.lb05.lengthValue? = some 0x05 ∧ s.job = some j ∧ j.stage = .lengthByte ∧ s.mem.wf = true ∧
      Job.Apart (j.srcBase s) (j.dstBase s) j.len j.cap j.r j.w ∧ j.r < j.len ∧ j.w ≤ j.cap ∧
      j.len < j.r + (0x05 : Byte).toNat ∧ j.w + (j.len - j.r - 1) ≤ j.cap :=
  ⟨by decide, rfl, rfl, by decide, .inl (by decide), by decide, by decide, by decide, by decide⟩
/-- V-D16: the destination fills first. -/
theorem witness_BlocksCutShortRaiseTheFirstFailureMet_capacity :
    let j := jobOf .dec [0x05, 0x11, 0x22] 1 0 0 .lengthByte
    let s := inside .dec [0x05, 0x11, 0x22] 1 0 0 .lengthByte
    Instr.lb05.lengthValue? = some 0x05 ∧ s.job = some j ∧ j.stage = .lengthByte ∧ s.mem.wf = true ∧
      Job.Apart (j.srcBase s) (j.dstBase s) j.len j.cap j.r j.w ∧ j.r < j.len ∧ j.w ≤ j.cap ∧
      j.cap < j.w + min ((0x05 : Byte).toNat - 1) (j.len - j.r - 1) :=
  ⟨by decide, rfl, rfl, by decide, .inl (by decide), by decide, by decide, by decide⟩
theorem witness_InvalidRowRaisesInvalidLengthByte :
    let j := jobOf .dec [0x00] 0 0 0 .lengthByte
    (inside .dec [0x00] 0 0 0 .lengthByte).job = some j ∧ j.stage = .lengthByte ∧ j.r < j.len := by decide
theorem witness_TerminatorRowEndsTheDecode :
    let j := jobOf .dec [0x01, 0x00] 0 1 0 .follow
    (inside .dec [0x01, 0x00] 0 1 0 .follow).job = some j ∧ j.stage = .follow ∧ j.r < j.len := by decide
/-- V-D5 and V-D6: room for the implied zero, and none. -/
theorem witness_ImpliedZeroRowWritesAZero (cap : Nat) (h : cap = 0 ∨ cap = 1) :
    let j := jobOf .dec [0x01, 0x01, 0x00] cap 1 0 .follow
    let s := inside .dec [0x01, 0x01, 0x00] cap 1 0 .follow
    s.job = some j ∧ j.stage = .follow ∧ j.r < j.len ∧ s.mem.wf = true ∧ (j.w < j.cap ∨ j.cap ≤ j.w) := by
  rcases h with rfl | rfl <;> decide
theorem witness_StatusRowsPostTheEnd (code : StatusCode) :
    let j := jobOf .dec [0x01, 0x00] 0 2 0 (.ended code)
    let s := inside .dec [0x01, 0x00] 0 2 0 (.ended code)
    s.job = some j ∧ j.stage = .ended code ∧ s.mem.wf = true ∧ s.cfg.failedDest = .written := by
  cases code <;> exact ⟨rfl, rfl, by decide, rfl⟩

theorem witness_ReservedCodesAreRefused (v : Nat) (h : v = 6 ∨ v = 7) :
    (v = 6 ∨ v = 7) ∧ State.reset.job = none ∧
      (thenHost State.reset [.writeReg .cmd v]).host = .writeReg .cmd v :: [] ∧
      (thenHost State.reset [.issueByBlock v]).host = .issueByBlock v :: [] ∧
      (thenHost State.reset [.resetDuring v]).host = .resetDuring v :: [] := ⟨h, rfl, rfl, rfl, rfl⟩
theorem witness_IllegalOperandsAreRefused_unwritten :
    State.reset.specified.argLen = false ∧ State.reset.specified.dstCap = false := ⟨rfl, rfl⟩
/-- One byte shared, the last of the source and the first of the destination. -/
theorem witness_IllegalOperandsAreRefused_shared :
    let s := { oneByte with argLen := 2, place := ⟨0, 1, 2, []⟩ }
    s.specified.argLen = true ∧ s.specified.dstCap = true ∧ s.addr .src 0 ≤ 1 ∧ 1 < s.addr .src s.argLen ∧
      s.addr .dst 0 ≤ 1 ∧ 1 < s.addr .dst s.dstCap ∧ s.argLen ≤ s.cfg.nMax := by decide
/-- One byte beyond `N_MAX`, the buffers apart. -/
theorem witness_IllegalOperandsAreRefused_tooLong :
    tooLong.specified.argLen = true ∧ tooLong.specified.dstCap = true ∧ tooLong.argLen = tooLong.cfg.nMax + 1 ∧
      tooLong.cfg.nMax < tooLong.argLen ∧ tooLong.buffersOverlap = false := by decide
theorem witness_DeviceMemoryIsRefused_buf :
    let s := onDevice .buf
    s.specified.argLen = true ∧ (s.addr .buf 0, 1) ∈ s.place.devices ∧ s.addr .buf 0 < s.addr .buf 0 + 1 ∧ s.addr .buf 0 < s.addr .buf s.argLen := by
  decide
theorem witness_DeviceMemoryIsRefused_src :
    let s := onDevice .src
    s.specified.argLen = true ∧ s.specified.dstCap = true ∧ (s.addr .src 0, 1) ∈ s.place.devices ∧ s.addr .src 0 < s.addr .src 0 + 1 ∧ s.buffersOverlap = false ∧
      s.addr .src 0 < s.addr .src s.argLen ∧ s.argLen ≤ s.cfg.nMax := by decide
theorem witness_DeviceMemoryIsRefused_dst :
    let s := onDevice .dst
    s.specified.argLen = true ∧ s.specified.dstCap = true ∧ (s.addr .dst 0, 1) ∈ s.place.devices ∧ s.addr .dst 0 < s.addr .dst 0 + 1 ∧ s.buffersOverlap = false ∧
      s.addr .dst 0 < s.addr .dst s.dstCap ∧ s.argLen ≤ s.cfg.nMax := by decide
theorem witness_DeviceMemoryIsRefused_sequence :
    let s := { onDevice .src with iter := ⟨1, 0, 0, .fin, .head⟩ }
    (s.addr .src 0, 1) ∈ s.place.devices ∧ s.addr .src 0 < s.addr .src 0 + 1 ∧ s.iter.phase = .head ∧
      s.addr .src 0 < s.addr .src s.iter.n := by decide

theorem witness_EachCommandHasItsStatuses :
    (∃ t, exec .len oneByte = .next t) ∧ (∃ t, exec .encsStart oneByte = .next t) ∧
    (∃ t, exec .encsNext oneByte = .next t) ∧ (∃ t, exec .enc oneByte = .next t) ∧
    (oneByte.mem.wf = true ∧ ∃ t, exec .deci oneByte = .next t) :=
  ⟨next_of_leads (by decide), next_of_leads (by decide), next_of_leads (by decide), next_of_leads (by decide),
    by decide, next_of_leads (by decide)⟩
theorem witness_OnlyTheLazySequenceTouchesItsRegisters :
    (∃ t, exec .deci oneByte = .next t) ∧ Instr.deci ≠ .encsStart ∧ Instr.deci ≠ .encsNext :=
  ⟨next_of_leads (by decide), by decide, by decide⟩
theorem witness_OperandRegistersAreNeverWritten : ∃ t, exec .enc oneByte = .next t := next_of_leads (by decide)

/-- The widest value, and one more. -/
theorem witness_HostWritesTheOperandRegisters :
    State.reset.job = none ∧ 4294967295 < 2 ^ State.reset.cfg.width ∧ 2 ^ State.reset.cfg.width ≤ 4294967296 ∧
    (thenHost State.reset [.writeReg .argLen 4294967295]).host = .writeReg .argLen 4294967295 :: [] ∧
    (thenHost State.reset [.writeReg .dstCap 4294967295]).host = .writeReg .dstCap 4294967295 :: [] ∧
    (thenHost State.reset [.writeReg .dstCap 4294967296]).host = .writeReg .dstCap 4294967296 :: [] := by decide
theorem witness_HostReadsTheReadableRegisters (reg : HostReg)
    (h : reg = .argLen ∨ reg = .dstCap ∨ reg = .rlen ∨ reg = .sdata ∨ reg = .status ∨ reg = .svalid) :
    ∃ value, State.reset.job = none ∧
      ((reg = .argLen ∧ value = State.reset.argLen) ∨ (reg = .dstCap ∧ value = State.reset.dstCap) ∨
        (reg = .rlen ∧ value = State.reset.rlen) ∨ (reg = .sdata ∧ value = State.reset.sdata.toNat) ∨
        (reg = .status ∧ value = State.reset.status.toNat) ∨ (reg = .svalid ∧ value = State.reset.svalid.toNat)) ∧
      (thenHost State.reset [.readReg reg]).host = .readReg reg :: [] := by
  rcases h with rfl | rfl | rfl | rfl | rfl | rfl <;> exact ⟨0, rfl, by decide, rfl⟩
theorem witness_HostReadsTheReadableRegisters_write (reg : HostReg)
    (h : reg = .rlen ∨ reg = .sdata ∨ reg = .status ∨ reg = .svalid) :
    State.reset.job = none ∧ (reg = .rlen ∨ reg = .sdata ∨ reg = .status ∨ reg = .svalid) ∧
    (thenHost State.reset [.writeReg reg 0]).host = .writeReg reg 0 :: [] := ⟨rfl, h, rfl⟩
theorem witness_CmdAndIterAreNotForTheHostToRead :
    State.reset.job = none ∧ (thenHost State.reset [.readReg .cmd]).host = .readReg .cmd :: [] ∧
    (thenHost State.reset [.readReg .iter]).host = .readReg .iter :: [] ∧
    (thenHost State.reset [.writeReg .iter 0]).host = .writeReg .iter 0 :: [] := by decide
theorem witness_HostReadsWritesAndMovesItsBuffers :
    let s := thenHost State.reset [.poke .dst 3 0xAA, .peek .dst 3]
    s.job = none ∧ s.mem.wf = true ∧ s.host = .poke .dst 3 0xAA :: .peek .dst 3 :: [] := by decide
theorem witness_HostReadsWritesAndMovesItsBuffers_read :
    let s := thenHost oneByte [.peek .src 0, .place .src 7]
    s.job = none ∧ s.host = .peek .src 0 :: .place .src 7 :: [] := by decide
theorem witness_HostReadsWritesAndMovesItsBuffers_move :
    let s := thenHost oneByte [.place .buf 7]
    s.job = none ∧ s.host = .place .buf 7 :: [] := by decide

end Sys2Proof.Tests
end

section
/-! Every step keeps the parameters of R9 and the widths R9 lays down for lengths, capacities and cursors. -/

namespace Sys2Proof.Machine

/-! ### The parameters -/

@[simp] theorem State.advance_cfg (s : State) (j : Job) : (s.advance j).cfg = s.cfg := by
  rcases advance_cases s j with ⟨c, stage, h, _⟩ | ⟨code, _, h⟩
  · rw [h, State.withCursors_cfg]
  · rw [h, State.finishDecode_cfg]

theorem kept_cfg (c : Config) : Kept fun s => s.cfg = c where
  len _ h _ := h
  enc s h _ := (finishEncode_fields s _).1.trans h
  startDecode _ _ h _ := h
  advance s j h _ := (s.advance_cfg j).trans h
  encsStart _ h _ := h
  encsNext s h _ := (nextByte_fields s).1.trans h
  argLen _ _ h _ := h
  dstCap _ _ h _ := h
  hostData _ _ h := h
  host _ _ h := h
  poke _ _ _ h := h
  place _ _ h := h
  reset _ h := h
  spoil _ _ _ h := h

/-- Settles O8: each operation a step is made of leaves the configuration alone. -/
theorem stepNeverChangesTheParameters : Obligations.StepNeverChangesTheParameters :=
  fun s _ e => (kept_cfg s.cfg).step rfl e

/-! ### The lengths a completion posts -/

/-- R9's constraint is what `LEN` needs for its result to fit `RLEN` (R112). -/
theorem maxEncodedLen_lt_of_legal {cfg : Config} {n : Nat} (hc : cfg.legal = true) (hn : n ≤ cfg.nMax) :
    maxEncodedLen n < 2 ^ cfg.width := by
  obtain ⟨_, hmax⟩ : 9 ≤ cfg.width ∧ cfg.nMax + cfg.nMax / 254 + 2 ≤ 2 ^ cfg.width - 1 := by
    simpa [Config.legal] using hc
  unfold maxEncodedLen
  omega

theorem Flow.andThen_go {f : Flow} {k : Cursors → Flow} {c' : Cursors} (h : f.andThen k = .go c') :
    ∃ c, f = .go c ∧ k c = .go c' := by
  cases f with
  | go c => exact ⟨c, rfl, h⟩
  | raised c code => cases h

theorem putByte_go_w_le {dst cap : Nat} {b : Byte} {c c' : Cursors} (h : putByte dst cap b c = .go c') :
    c'.w ≤ cap := by
  by_cases hroom : c.w < cap
  · rw [putByte_room dst b hroom] at h
    cases h
    exact hroom
  · rw [putByte_full dst b (Nat.le_of_not_lt hroom)] at h
    cases h

/-- `ENC` ends with success only behind the `put` of its terminator, which found room (R51, R126). -/
theorem encodeFrame_go_w_le {m : Memory} {src dst n cap : Nat} {c : Cursors}
    (h : encodeFrame m src dst n cap = .go c) : c.w ≤ cap := by
  obtain ⟨_, _, hput⟩ := Flow.andThen_go h
  exact putByte_go_w_le hput

theorem Iter.settle_n (it : Iter) : it.settle.n = it.n := by
  unfold Iter.settle
  split
  · rfl
  · split <;> rfl

/-! ### The widths, clause by clause -/

/-- A decode holds operands of `width` bits and has written no more than its capacity (R51). -/
structure Job.InWidth (j : Job) (width : Nat) : Prop where
  len : j.len < 2 ^ width
  cap : j.cap < 2 ^ width
  w : j.w ≤ j.cap

/-- `State.lengthsFit` with its clauses named. -/
structure State.LengthsInWidth (s : State) : Prop where
  legal : s.cfg.legal = true
  argLen : s.argLen < 2 ^ s.cfg.width
  dstCap : s.dstCap < 2 ^ s.cfg.width
  rlen : s.rlen < 2 ^ s.cfg.width
  iterN : s.iter.n ≤ s.cfg.nMax
  job : ∀ j, s.job = some j → j.InWidth s.cfg.width

theorem State.lengthsFit_iff (s : State) : s.lengthsFit = true ↔ s.LengthsInWidth := by
  unfold State.lengthsFit
  constructor
  · intro h
    simp only [Bool.and_eq_true, decide_eq_true_eq] at h
    obtain ⟨⟨⟨⟨⟨hlegal, harg⟩, hcap⟩, hrlen⟩, hn⟩, hjob⟩ := h
    refine ⟨hlegal, harg, hcap, hrlen, hn, fun j hj => ?_⟩
    simp only [hj, Bool.and_eq_true, decide_eq_true_eq] at hjob
    obtain ⟨⟨hlen, hjcap⟩, hw⟩ := hjob
    exact ⟨hlen, hjcap, hw⟩
  · rintro ⟨hlegal, harg, hcap, hrlen, hn, hjob⟩
    simp only [hlegal, harg, hcap, hrlen, hn, decide_true, Bool.and_true, Bool.true_and]
    split
    · rfl
    · next j hj => simp [(hjob j hj).len, (hjob j hj).cap, (hjob j hj).w]

namespace State.LengthsInWidth

variable {s : State}

theorem postOk (h : s.LengthsInWidth) {v : Nat} (hv : v < 2 ^ s.cfg.width) : (s.postOk v).LengthsInWidth :=
  { h with rlen := hv }

/-- The free value of `RLEN` after a failure is cut to `W` bits (R23). -/
theorem postFailure (h : s.LengthsInWidth) (code : StatusCode) : (s.postFailure code).LengthsInWidth :=
  { h with rlen := Nat.mod_lt _ (Nat.two_pow_pos _) }

theorem leaveFailed (h : s.LengthsInWidth) (b : Buffer) (n : Nat) : (s.leaveFailed b n).LengthsInWidth := by
  unfold State.leaveFailed
  split
  · exact h
  · exact { h with }

theorem finishEncode (h : s.LengthsInWidth) {f : Flow} (hf : ∀ c, f = .go c → c.w ≤ s.dstCap) :
    (s.finishEncode f).LengthsInWidth := by
  cases f with
  | go c => exact postOk (s := { s with mem := c.mem }) { h with } (Nat.lt_of_le_of_lt (hf c rfl) h.dstCap)
  | raised c code => exact (leaveFailed (s := { s with mem := c.mem }) { h with } .dst s.dstCap).postFailure code

theorem finishDecode (h : s.LengthsInWidth) {j : Job} (hj : j.InWidth s.cfg.width) (code : StatusCode) :
    (s.finishDecode j code).LengthsInWidth := by
  have hidle : State.LengthsInWidth { s with job := none } := { h with job := nofun }
  have hfailed (code) := (hidle.leaveFailed j.form.dest j.entitled).postFailure code
  cases code with
  | ok => exact hidle.postOk (Nat.lt_of_le_of_lt hj.w hj.cap)
  | bufferTooSmall => exact hfailed _
  | truncatedFrame => exact hfailed _
  | invalidLengthByte => exact hfailed _

/-- A decode's record holds the operand registers themselves (R94, R160). -/
theorem startDecode (h : s.LengthsInWidth) (form : DecodeForm) : (s.startDecode form).LengthsInWidth := by
  refine { h with job := fun j hj => ?_ }
  cases hj
  cases form with
  | dec => exact ⟨h.argLen, h.dstCap, Nat.zero_le _⟩
  | deci => exact ⟨h.argLen, h.argLen, Nat.zero_le _⟩

theorem withCursors (h : s.LengthsInWidth) {j : Job} (hj : j.InWidth s.cfg.width) {c : Cursors} (hw : c.w ≤ j.cap)
    (stage : DecodeAt) : (s.withCursors j c stage).LengthsInWidth := by
  refine { h with job := fun j' hj' => ?_ }
  cases hj'
  exact { hj with w := hw }

theorem advance (h : s.LengthsInWidth) {j : Job} (hs : s.job = some j) : (s.advance j).LengthsInWidth := by
  have hj := h.job j hs
  rcases advance_cases s j with ⟨c, stage, he, hmoves⟩ | ⟨code, _, he⟩
  · rw [he]
    exact h.withCursors hj (hmoves.writeEnd.trans (Nat.max_le.mpr ⟨hj.w, Nat.le_refl _⟩)) stage
  · rw [he]
    exact h.finishDecode hj code

theorem nextByte (h : s.LengthsInWidth) : s.nextByte.LengthsInWidth := by
  unfold State.nextByte
  split
  · exact { h with iterN := (Iter.settle_n _).trans_le h.iterN }
  · exact { h with iterN := (Iter.settle_n _).trans_le h.iterN }
  · exact { h with }
  · exact { h with }

/-- A reset cuts each free value to the width of its register (R34, R35). -/
theorem resetRegisters (h : s.LengthsInWidth) : s.resetRegisters.LengthsInWidth where
  legal := h.legal
  argLen := Nat.mod_lt _ (Nat.two_pow_pos _)
  dstCap := Nat.mod_lt _ (Nat.two_pow_pos _)
  rlen := Nat.mod_lt _ (Nat.two_pow_pos _)
  iterN := Nat.le_of_lt_succ (Nat.mod_lt _ (Nat.succ_pos _))
  job := nofun

end State.LengthsInWidth

theorem kept_lengthsInWidth : Kept State.LengthsInWidth where
  len s h hr := h.postOk (maxEncodedLen_lt_of_legal h.legal ((lenRefusal_none s).mp hr).2)
  enc _ h _ := h.finishEncode fun _ => encodeFrame_go_w_le
  startDecode _ form h _ := h.startDecode form
  advance _ _ h hj := h.advance hj
  encsStart s h hr := { h with iterN := ((encsStartRefusal_none s).mp hr).2 }
  encsNext _ h _ := h.nextByte
  argLen _ _ h hv := { h with argLen := hv }
  dstCap _ _ h hv := { h with dstCap := hv }
  hostData _ _ h := { h with }
  host _ _ h := { h with }
  poke _ _ _ h := { h with }
  place _ _ h := { h with }
  reset _ h := h.resetRegisters
  spoil _ _ _ h := { h with }

/-- Settles O5: each operation a step is made of keeps the lengths in width. What is posted fits because R9's constraint
covers `LEN`, and a write cursor stays within a capacity of `W` bits for `ENC`, `DEC` and `DECI`. -/
theorem stepKeepsLengthsInWidth : Obligations.StepKeepsLengthsInWidth := by
  intro s t hs e
  rw [State.lengthsFit_iff] at hs ⊢
  exact kept_lengthsInWidth.step hs e

end Sys2Proof.Machine
end

section
/-! The registers and the host's accesses to them: what each action of the host does, what a reset inside a command frees,
what a row leaves alone, and what the results of a command depend on. -/

namespace Sys2Proof.Machine

/-! ### The host's next action -/

/-- An idle block does what the host asks for next. -/
theorem step_hostAction {s : State} {a : HostAction} {rest : List HostAction} (hj : s.job = none)
    (hh : s.host = a :: rest) : step s = hostStep a { s with host := rest } := by
  rw [step_idle hj]
  unfold hostTurn
  rw [hh]

/-- A 3-bit value written to `CMD` is a code (R91). -/
theorem fetchCommand_code {v : Nat} (hv : v < 8) : fetchCommand v = some (decodeCommand (BitVec.ofNat 3 v)) :=
  if_pos hv

/-- Settles O9: the write of `CMD` is the host's next action, and a value of 3 bits fetches the row of its code. -/
theorem stepRunsTheIssuedCommand : Obligations.StepRunsTheIssuedCommand := by
  intro s rest v hj hh hv
  rw [step_hostAction hj hh]
  simp only [hostStep, hostWrite, fetchCommand_code hv]

/-- Settles O12: with no decode and no action left, the host's turn is empty (R34). -/
theorem idleBlockWaits : Obligations.IdleBlockWaits := by
  intro s hj hh
  rw [step_idle hj]
  unfold hostTurn
  rw [hh]

/-- Settles O57: the test of the width decides each write (R11). -/
theorem hostWritesTheOperandRegisters : Obligations.HostWritesTheOperandRegisters := by
  intro s rest v hj
  refine ⟨fun hh hv => ?_, fun hh hv => ?_, fun hh hv => ?_⟩
  · exact (step_hostAction hj hh).trans (if_pos hv)
  · exact (step_hostAction hj hh).trans (if_pos hv)
  · rcases hh with hh | hh
    · exact (step_hostAction hj hh).trans (if_neg (Nat.not_lt.mpr hv))
    · exact (step_hostAction hj hh).trans (if_neg (Nat.not_lt.mpr hv))

/-- Settles O58, register by register. -/
theorem hostReadsTheReadableRegisters : Obligations.HostReadsTheReadableRegisters := by
  intro s rest reg hj
  constructor
  · intro value hreg hh
    rw [step_hostAction hj hh]
    rcases hreg with ⟨rfl, rfl⟩ | ⟨rfl, rfl⟩ | ⟨rfl, rfl⟩ | ⟨rfl, rfl⟩ | ⟨rfl, rfl⟩ | ⟨rfl, rfl⟩ <;> rfl
  · intro v hreg hh
    rw [step_hostAction hj hh]
    rcases hreg with rfl | rfl | rfl | rfl <;> rfl

/-- Settles O59: the host port names the refusal of each access (R25, R29; log 18). -/
theorem cmdAndIterAreNotForTheHostToRead : Obligations.CmdAndIterAreNotForTheHostToRead := by
  intro s rest v hj
  constructor
  · rintro (hh | hh) <;> rw [step_hostAction hj hh] <;> rfl
  · intro hh
    rw [step_hostAction hj hh]
    rfl

/-! ### Reset -/

/-- Settles O1: each clause is evaluated at the one state it speaks of. -/
theorem resetStateIsSound : Obligations.ResetStateIsSound := by
  unfold Obligations.ResetStateIsSound
  decide

theorem guarded_of_none {o : Option Refusal} (h : o = none) (s : State) : guarded o s = .next s := by
  rw [h]
  rfl

theorem encsNextRefusal_none (s : State) : s.encsNextRefusal = none ↔
    (s.iter.phase = .head ∨ s.iter.phase = .data → s.touchesDevice .src s.iter.n = false) := by
  unfold State.encsNextRefusal
  cases s.iter.phase <;> simp

theorem resetRegisters_resetFrom (s : State) (rest : List HostAction) :
    ({ s with host := rest }).resetRegisters.ResetFrom s rest := ⟨rfl, rfl, rfl, rfl, rfl, rfl⟩

theorem abandon_resetFrom (s : State) (rest : List HostAction) (b : Buffer) (n : Nat) :
    (({ s with host := rest }).abandon b n).ResetFrom s rest := ⟨rfl, rfl, rfl, rfl, rfl, rfl⟩

/-- A reset that finds a command in progress frees the bytes it is told to, and no others (U13). -/
theorem abandon_sameOutside {s : State} (hm : s.mem.wf = true) (b : Buffer) (n : Nat) :
    s.mem.SameOutside (s.abandon b n).mem (s.addr b 0) n :=
  fun _ ha => Memory.read_spoil_outside _ _ _ hm ha

/-- Settles O3: under a command's own conditions its reset is not refused; `ENC`, `DEC` and `DECI` are abandoned with
their destination, the others lose their registers alone. -/
theorem resetDuringACommandFreesItsDestination : Obligations.ResetDuringACommandFreesItsDestination := by
  intro s rest code hj hh
  have hstep := step_hostAction hj hh
  refine ⟨?enc, ?dec, ?deci, ?length, ?next⟩
  case enc =>
    rintro rfl hm hlegal hn
    exact ⟨_, hstep.trans (guarded_of_none ((encRefusal_none _).mpr ⟨hn, hlegal⟩) _), abandon_resetFrom s rest .dst s.dstCap,
      abandon_sameOutside (s := { s with host := rest }) hm .dst s.dstCap⟩
  case dec =>
    rintro rfl hm hlegal
    exact ⟨_, hstep.trans (guarded_of_none ((decRefusal_none _).mpr hlegal) _), abandon_resetFrom s rest .dst s.dstCap,
      abandon_sameOutside (s := { s with host := rest }) hm .dst s.dstCap⟩
  case deci =>
    rintro rfl hm hlegal
    exact ⟨_, hstep.trans (guarded_of_none ((deciRefusal_none _).mpr hlegal) _), abandon_resetFrom s rest .buf s.argLen,
      abandon_sameOutside (s := { s with host := rest }) hm .buf s.argLen⟩
  case length =>
    rintro (rfl | rfl) hlegal
    · exact ⟨_, hstep.trans (guarded_of_none ((lenRefusal_none _).mpr hlegal) _), resetRegisters_resetFrom s rest, rfl⟩
    · exact ⟨_, hstep.trans (guarded_of_none ((encsStartRefusal_none _).mpr hlegal) _), resetRegisters_resetFrom s rest,
        rfl⟩
  case next =>
    rintro rfl hoff
    exact ⟨_, hstep.trans (guarded_of_none ((encsNextRefusal_none _).mpr hoff) _), resetRegisters_resetFrom s rest, rfl⟩

/-! ### What a row leaves alone -/

/-- What no row writes: the operand registers with their marks, the placement and the host's fields. -/
def State.operands (s : State) : Nat × Nat × Placement × List HostAction × Nat × Bool × Bool :=
  (s.argLen, s.dstCap, s.place, s.host, s.hostData, s.specified.argLen, s.specified.dstCap)

/-- What only the rows of the lazy sequence write: `ITER`, `SDATA`, `SVALID`. -/
def State.sequence (s : State) : Iter × Byte × Bool := (s.iter, s.sdata, s.svalid)

/-- What every operation but those of the lazy sequence leaves alone. -/
def State.frame (s : State) := (s.operands, s.sequence)

theorem State.operands_eq_iff (s t : State) : t.operands = s.operands ↔
    t.argLen = s.argLen ∧ t.dstCap = s.dstCap ∧ t.place = s.place ∧ t.host = s.host ∧ t.hostData = s.hostData ∧
    t.specified.argLen = s.specified.argLen ∧ t.specified.dstCap = s.specified.dstCap := by
  simp only [State.operands, Prod.mk.injEq]

theorem State.sequence_eq_iff (s t : State) :
    t.sequence = s.sequence ↔ t.iter = s.iter ∧ t.sdata = s.sdata ∧ t.svalid = s.svalid := by
  simp only [State.sequence, Prod.mk.injEq]

theorem State.frame_eq_iff (s t : State) :
    t.frame = s.frame ↔ t.operands = s.operands ∧ t.sequence = s.sequence := by
  simp only [State.frame, Prod.mk.injEq]

theorem iter_eq_of_frame_eq {s t : State} (h : t.frame = s.frame) : t.iter = s.iter :=
  ((State.sequence_eq_iff s t).mp ((State.frame_eq_iff s t).mp h).2).1

theorem place_eq_of_frame_eq {s t : State} (h : t.frame = s.frame) : t.place = s.place := by
  obtain ⟨_, _, hplace, _⟩ := (State.operands_eq_iff s t).mp ((State.frame_eq_iff s t).mp h).1
  exact hplace

@[simp] theorem State.finishEncode_frame (s : State) (f : Flow) : (s.finishEncode f).frame = s.frame := by
  obtain ⟨_, hargLen, hdstCap, hiter, hsdata, hsvalid, _, hplace, hhost, hdata, hmarkLen, hmarkCap⟩ :=
    finishEncode_fields s f
  exact (State.frame_eq_iff _ _).mpr
    ⟨(State.operands_eq_iff _ _).mpr ⟨hargLen, hdstCap, hplace, hhost, hdata, hmarkLen, hmarkCap⟩,
      (State.sequence_eq_iff _ _).mpr ⟨hiter, hsdata, hsvalid⟩⟩

@[simp] theorem State.nextByte_operands (s : State) : s.nextByte.operands = s.operands := by
  obtain ⟨_, hargLen, hdstCap, _, _, _, hplace, hhost, hdata, _, hmarkLen, hmarkCap⟩ := nextByte_fields s
  exact (State.operands_eq_iff _ _).mpr ⟨hargLen, hdstCap, hplace, hhost, hdata, hmarkLen, hmarkCap⟩

@[simp] theorem State.withCursors_frame (s : State) (j : Job) (c : Cursors) (stage : DecodeAt) :
    (s.withCursors j c stage).frame = s.frame := rfl

@[simp] theorem State.finishDecode_frame (s : State) (j : Job) (code : StatusCode) :
    (s.finishDecode j code).frame = s.frame := by
  obtain ⟨_, hargLen, hdstCap, hiter, hsdata, hsvalid, hplace, hhost, hdata, _, hmarks⟩ := finishDecode_fields s j code
  exact (State.frame_eq_iff _ _).mpr
    ⟨(State.operands_eq_iff _ _).mpr ⟨hargLen, hdstCap, hplace, hhost, hdata, by rw [hmarks], by rw [hmarks]⟩,
      (State.sequence_eq_iff _ _).mpr ⟨hiter, hsdata, hsvalid⟩⟩

@[simp] theorem State.advance_frame (s : State) (j : Job) : (s.advance j).frame = s.frame := by
  rcases advance_cases s j with ⟨c, stage, h, _⟩ | ⟨code, _, h⟩
  · rw [h, State.withCursors_frame]
  · rw [h, State.finishDecode_frame]

@[simp] theorem State.decodeAll_frame (s : State) (form : DecodeForm) : (s.decodeAll form).frame = s.frame :=
  runDecode_keeps (P := fun u => u.frame = s.frame) (fun u j h _ => (u.advance_frame j).trans h) _ _ rfl

@[simp] theorem State.takeLengthByte_frame (s : State) (j : Job) (b : Byte) :
    (s.takeLengthByte j b).frame = s.frame := by
  unfold State.takeLengthByte
  by_cases hb : b = 0x00
  · rw [if_pos hb, State.withCursors_frame]
  · rw [if_neg hb]
    split <;> rfl

@[simp] theorem State.takeImpliedZero_frame (s : State) (j : Job) : (s.takeImpliedZero j).frame = s.frame := by
  unfold State.takeImpliedZero
  split <;> rfl

/-- A row that is none of the lazy sequence's writes result registers, memory and the record of a decode alone. -/
theorem exec_frame {i : Instr} {s t : State} (h : exec i s = .next t) (hstart : i ≠ .encsStart)
    (hnext : i ≠ .encsNext) : t.frame = s.frame := by
  rcases exec_next h with ⟨_, _, rfl⟩ | ⟨_, _, rfl⟩ | ⟨_, _, rfl⟩ | ⟨_, _, rfl⟩ | ⟨hi, _, _⟩ | ⟨hi, _, _⟩ |
    ⟨j, _, ⟨_, _, _, rfl⟩ | ⟨_, _, _, rfl⟩ | ⟨_, _, _, rfl⟩ | ⟨code, _, _, rfl⟩⟩
  case inl => rfl
  · exact s.finishEncode_frame _
  · exact s.decodeAll_frame .dec
  · exact s.decodeAll_frame .deci
  · exact absurd hi hstart
  · exact absurd hi hnext
  · exact s.takeLengthByte_frame j i.word
  · rfl
  · exact s.takeImpliedZero_frame j
  · exact s.finishDecode_frame j code

/-- `ENCS.START` writes `ITER` and `STATUS` alone (R131). -/
theorem exec_encsStart_next {s t : State} (h : exec .encsStart s = .next t) :
    t = ({ s with iter := ⟨s.argLen, 0, 0, .fin, .head⟩ }).postStatus .ok := (guarded_next h).2

theorem exec_operands {i : Instr} {s t : State} (h : exec i s = .next t) : t.operands = s.operands := by
  by_cases hstart : i = .encsStart
  · subst hstart
    rw [exec_encsStart_next h]
    rfl
  by_cases hnext : i = .encsNext
  · subst hnext
    rw [(guarded_next h).2, State.nextByte_operands]
  exact ((State.frame_eq_iff s t).mp (exec_frame h hstart hnext)).1

theorem exec_sequence {i : Instr} {s t : State} (h : exec i s = .next t) (hstart : i ≠ .encsStart)
    (hnext : i ≠ .encsNext) : t.iter = s.iter ∧ t.sdata = s.sdata ∧ t.svalid = s.svalid :=
  (State.sequence_eq_iff s t).mp ((State.frame_eq_iff s t).mp (exec_frame h hstart hnext)).2

/-- Settles O56: the operands are in the frame of every row. -/
theorem operandRegistersAreNeverWritten : Obligations.OperandRegistersAreNeverWritten :=
  fun _ s t h => (State.operands_eq_iff s t).mp (exec_operands h)

/-- Settles O55: of the two rows of the lazy sequence `ENCS.START` writes `ITER` and leaves `SDATA` and `SVALID` alone. -/
theorem onlyTheLazySequenceTouchesItsRegisters : Obligations.OnlyTheLazySequenceTouchesItsRegisters := by
  intro i s t h
  refine ⟨fun hstart hnext => (exec_sequence h hstart hnext).1, fun hnext => ?_⟩
  by_cases hstart : i = .encsStart
  · subst hstart
    rw [exec_encsStart_next h]
    exact ⟨rfl, rfl⟩
  · exact (exec_sequence h hstart hnext).2

/-! ### What the results depend on -/

/-- What a transform with a limited destination recovers and reports (R154, R207). -/
def Ref.cut (cap : Nat) (q : List Byte × StatusCode) : List Byte × StatusCode :=
  if q.1.length ≤ cap then q else (q.1.take cap, .bufferTooSmall)

/-- A state reports a result: the status, and on success the count and the bytes of the output in the buffer at `base`. -/
def State.Reports (t : State) (base : Nat) (q : List Byte × StatusCode) : Prop :=
  t.status = q.2.bits ∧ (t.status = 0 → t.rlen = q.1.length ∧ t.mem.Holds base q.1)

theorem StatusCode.bits_eq_zero {code : StatusCode} : code.bits = 0 ↔ code = .ok := by
  cases code <;> decide

theorem State.EndsOk.reports {t s : State} {o : Option Job} {b : Buffer} {out : List Byte} (h : t.EndsOk s o b out) :
    t.Reports (s.addr b 0) (out, .ok) := by
  obtain ⟨ht, hholds, _⟩ := h
  exact ⟨by rw [ht]; rfl, fun _ => ⟨by rw [ht], hholds⟩⟩

theorem State.EndsFailed.reports {t s : State} {o : Option Job} {b : Buffer} {n : Nat} {out out' : List Byte}
    {code : StatusCode} (h : t.EndsFailed s o b n out code) (hcode : code ≠ .ok) (base : Nat) :
    t.Reports base (out', code) := by
  obtain ⟨ht, _⟩ := h
  have hstatus : t.status = code.bits := by rw [ht]
  exact ⟨hstatus, fun h0 => absurd (StatusCode.bits_eq_zero.mp (hstatus.symm.trans h0)) hcode⟩

/-- Two states that report one result agree in status and, on success, in length and bytes. -/
theorem State.Reports.agree {t v : State} {base base' : Nat} {q : List Byte × StatusCode} (ht : t.Reports base q)
    (hv : v.Reports base' q) : t.status = v.status ∧
      (t.status = 0 → t.rlen = v.rlen ∧ t.mem.slice base t.rlen = v.mem.slice base' v.rlen) := by
  have hstatus : t.status = v.status := ht.1.trans hv.1.symm
  refine ⟨hstatus, fun h0 => ?_⟩
  obtain ⟨htlen, htmem⟩ := ht.2 h0
  obtain ⟨hvlen, hvmem⟩ := hv.2 (hstatus.symm.trans h0)
  rw [htlen, hvlen]
  exact ⟨rfl, htmem.trans hvmem.symm⟩

/-- `ENC` reports the frame, cut at its capacity (R127). -/
theorem exec_enc_reports {s : State} (hm : s.mem.wf = true) (hn : s.argLen ≤ s.cfg.nMax) (hlegal : s.OperandsLegal) :
    ∃ t, exec .enc s = .next t ∧ t.Reports (s.addr .dst 0) (Ref.cut s.dstCap (Ref.enc (s.input .src), .ok)) := by
  obtain ⟨t, he, _, hends⟩ := exec_enc_spec s hm ((encRefusal_none s).mpr ⟨hn, hlegal⟩)
  refine ⟨t, he, ?_⟩
  unfold Ref.cut
  split at hends
  · rw [if_pos ‹_›]
    exact hends.reports
  · rw [if_neg ‹_›]
    exact hends.reports nofun _

/-- A decode reports the reference decoder's output, cut at its capacity (R154, R207). -/
theorem decodeAll_reports {s : State} {form : DecodeForm} (hm : s.mem.wf = true)
    (ha : Job.Apart ((s.newJob form).srcBase s) ((s.newJob form).dstBase s) s.argLen (s.newJob form).cap 0 0) :
    (s.decodeAll form).Reports (s.addr form.dest 0)
      (Ref.cut (s.newJob form).cap (Ref.output (s.input form.source))) := by
  have hends := (decodeAll_ends s form hm ha).2
  have hinput : s.mem.slice ((s.newJob form).srcBase s) s.argLen = s.input form.source := by cases form <;> rfl
  rw [hinput] at hends
  unfold Ref.cut
  split at hends
  · rw [if_pos ‹_›]
    split at hends
    · next hok =>
      have := hends.reports
      rwa [← hok] at this
    · next hcode => exact hends.reports hcode _
  · rw [if_neg ‹_›]
    exact hends.reports nofun _

/-- `DEC` reports the reference decoder's output, cut at `DST_CAP`. -/
theorem exec_dec_reports {s : State} (hm : s.mem.wf = true) (hlegal : s.OperandsLegal) :
    ∃ t, exec .dec s = .next t ∧ t.Reports (s.addr .dst 0) (Ref.cut s.dstCap (Ref.output (s.input .src))) := by
  refine ⟨_, guarded_of_none ((decRefusal_none s).mpr hlegal) _, decodeAll_reports (form := .dec) hm (.inl ?_)⟩
  obtain ⟨_, _, hoverlap, _⟩ := hlegal
  exact hoverlap

/-- `DECI` reports the reference decoder's output, cut at its own buffer's length (R160). -/
theorem exec_deci_reports {s : State} (hm : s.mem.wf = true) (hlegal : s.InPlaceLegal) :
    ∃ t, exec .deci s = .next t ∧ t.Reports (s.addr .buf 0) (Ref.cut s.argLen (Ref.output (s.input .buf))) :=
  ⟨_, guarded_of_none ((deciRefusal_none s).mpr hlegal) _,
    decodeAll_reports (form := .deci) hm (.inr ⟨rfl, Nat.le_refl _⟩)⟩

/-- Settles O43: what each of the three commands reports is a function of its operands and its input. -/
theorem resultsDependOnOperandsAndInputAlone : Obligations.ResultsDependOnOperandsAndInputAlone := by
  rintro i inp out s u (⟨rfl, rfl, rfl, hsn, hun, hs, hu⟩ | ⟨rfl, rfl, rfl, hs, hu⟩ | ⟨rfl, rfl, rfl, hs, hu⟩) hsm hum
    hlen hcap hinput
  · obtain ⟨t, ht, htq⟩ := exec_enc_reports hsm hsn hs
    obtain ⟨v, hv, hvq⟩ := exec_enc_reports hum hun hu
    rw [hcap, hinput] at htq
    exact ⟨t, v, ht, hv, htq.agree hvq⟩
  · obtain ⟨t, ht, htq⟩ := exec_dec_reports hsm hs
    obtain ⟨v, hv, hvq⟩ := exec_dec_reports hum hu
    rw [hcap, hinput] at htq
    exact ⟨t, v, ht, hv, htq.agree hvq⟩
  · obtain ⟨t, ht, htq⟩ := exec_deci_reports hsm hs
    obtain ⟨v, hv, hvq⟩ := exec_deci_reports hum hu
    rw [hlen, hinput] at htq
    exact ⟨t, v, ht, hv, htq.agree hvq⟩

end Sys2Proof.Machine
end

section
/-! The invariants of `ITER` (R30): in its own fields in every step, and, with a host that keeps its duties (R238), the
block being yielded without a zero byte. -/

namespace Sys2Proof.Machine

/-! ### The iterator in its own fields -/

/-- What the tail says of the index where the block in progress ends: bytes follow a full block or not, a zero byte
follows, or nothing does (R120, R132). -/
def Iter.TailFits (it : Iter) : Prop :=
  match it.tail with
  | .cont => it.pos + it.rem ≤ it.n
  | .zero => it.pos + it.rem < it.n
  | .fin => it.pos + it.rem = it.n

theorem Iter.sound_iff (it : Iter) : it.sound = true ↔ it.pos ≤ it.n ∧ it.rem ≤ 254 ∧
    (it.phase = .head → it.rem = 0) ∧ (it.phase = .data → 1 ≤ it.rem ∧ it.TailFits) ∧
    (it.phase = .term → it.rem = 0 ∧ it.tail = .fin ∧ it.pos = it.n) := by
  unfold Iter.sound Iter.TailFits
  cases it.phase <;> cases it.tail <;> simp [and_assoc]

theorem Iter.TailFits.end_le {it : Iter} (h : it.TailFits) : it.pos + it.rem ≤ it.n := by
  unfold Iter.TailFits at h
  split at h <;> omega

/-- Whatever follows a byte that has been yielded, the invariants hold there (R132). -/
theorem Iter.settle_sound {it : Iter} (hrem : it.rem ≤ 254) (h : it.TailFits) : it.settle.sound = true := by
  have hend := h.end_le
  have hpos : it.pos ≤ it.n := by omega
  unfold Iter.settle
  by_cases hmore : 0 < it.rem
  · rw [if_pos hmore, Iter.sound_iff]
    exact ⟨hpos, hrem, nofun, fun _ => ⟨hmore, h⟩, nofun⟩
  · have hzero : it.rem = 0 := by omega
    rw [if_neg hmore]
    unfold Iter.TailFits at h
    cases htail : it.tail <;> simp only [htail, hzero, Nat.add_zero] at h <;> rw [Iter.sound_iff]
    case cont => exact ⟨hpos, hrem, fun _ => hzero, nofun, nofun⟩
    case zero => exact ⟨h, hrem, fun _ => hzero, nofun, nofun⟩
    case fin => exact ⟨hpos, hrem, nofun, nofun, fun _ => ⟨hzero, rfl, h⟩⟩

/-- A block of which a byte is left stands as it was. -/
theorem Iter.settle_data {it : Iter} (h : it.settle.phase = .data) :
    it.settle.pos = it.pos ∧ it.settle.rem = it.rem := by
  unfold Iter.settle at h ⊢
  split
  · exact ⟨rfl, rfl⟩
  · rw [if_neg ‹_›] at h
    split at h <;> cases h

theorem scanRun_le (m : Memory) (base n p : Nat) (hp : p ≤ n) : (scanRun m base n p).1 ≤ 254 := by
  rw [scanRun_eq m base n p hp]
  exact Ref.runLen_le _

/-- The tail of a run that has been scanned fits its end. -/
theorem scanRun_tailFits (m : Memory) (base n p : Nat) (hp : p ≤ n) (phase : Phase) :
    Iter.TailFits ⟨n, p, (scanRun m base n p).1, (scanRun m base n p).2, phase⟩ := by
  rw [scanRun_eq m base n p hp]
  have hlen : ((m.slice base n).drop p).length = n - p := by simp
  have hle := Ref.runLen_le_length ((m.slice base n).drop p)
  simp only [Iter.TailFits, Ref.run]
  split
  case h_1 => omega
  case h_2 hkind =>
    have := (Ref.runKind_zero hkind).2
    omega
  case h_3 hkind =>
    have := (Ref.runKind_fin hkind).1
    omega

theorem nextByte_sound {s : State} (h : s.iter.sound = true) : s.nextByte.iter.sound = true := by
  obtain ⟨hpos, hrem, _, hdata, _⟩ := (Iter.sound_iff _).mp h
  unfold State.nextByte
  split
  case h_1 => exact Iter.settle_sound (scanRun_le _ _ _ _ hpos) (scanRun_tailFits _ _ _ _ hpos _)
  case h_2 hphase =>
    obtain ⟨hone, hfits⟩ := hdata hphase
    refine Iter.settle_sound (by simp only; omega) ?_
    unfold Iter.TailFits at hfits ⊢
    simp only
    split at hfits <;> omega
  case h_3 => exact (Iter.sound_iff _).mpr ⟨hpos, hrem, nofun, nofun, nofun⟩
  case h_4 => exact h

theorem resetIter_sound (cfg : Config) (k : Nat) : (resetIter cfg k).sound = true :=
  (Iter.sound_iff _).mpr ⟨Nat.le_of_lt_succ (Nat.mod_lt _ (Nat.succ_pos _)), Nat.le_of_lt_succ (Nat.mod_lt _ (by decide)),
    nofun, nofun, nofun⟩

theorem kept_iterSound : Kept fun s => s.iter.sound = true where
  len _ h _ := h
  enc s h _ := by rwa [iter_eq_of_frame_eq (s.finishEncode_frame _)]
  startDecode _ _ h _ := h
  advance s j h _ := by rwa [iter_eq_of_frame_eq (s.advance_frame j)]
  encsStart _ _ _ := (Iter.sound_iff _).mpr ⟨Nat.zero_le _, Nat.zero_le _, fun _ => rfl, nofun, nofun⟩
  encsNext _ h _ := nextByte_sound h
  argLen _ _ h _ := h
  dstCap _ _ h _ := h
  hostData _ _ h := h
  host _ _ h := h
  poke _ _ _ h := h
  place _ _ h := h
  reset s _ := resetIter_sound s.cfg (s.free + 4)
  spoil _ _ _ h := h

/-! ### The bytes of the block being yielded -/

/-- The bytes a scan has counted are not zero (R120). -/
theorem scanCount_nonzero (m : Memory) (base n fuel p : Nat) {k : Nat} (hk : k < scanCount m base n fuel p) :
    m.read (base + (p + k)) ≠ 0 := by
  induction fuel generalizing p k with
  | zero => exact absurd hk (Nat.not_lt_zero k)
  | succ fuel ih =>
    unfold scanCount at hk
    split at hk
    · next hbyte =>
      cases k with
      | zero => exact hbyte.2
      | succ k =>
        have := ih (p + 1) (Nat.lt_of_succ_lt_succ hk)
        rwa [Nat.add_right_comm p 1 k] at this
    · exact absurd hk (Nat.not_lt_zero k)

/-- `ENCS.NEXT` opens a block with no zero byte, or goes on inside one. -/
theorem nextByte_blockNonZero {s : State} (h : s.BlockNonZero) : s.nextByte.BlockNonZero := by
  unfold State.nextByte
  split
  case h_1 =>
    intro hdata k hk
    obtain ⟨hpos, hrem⟩ := Iter.settle_data hdata
    simp only [State.nextHead, State.yieldByte_iter, State.yieldByte_mem, hpos, hrem] at hk ⊢
    exact scanCount_nonzero s.mem (s.addr .src 0) s.iter.n 254 s.iter.pos hk
  case h_2 hphase =>
    intro hdata k hk
    obtain ⟨hpos, hrem⟩ := Iter.settle_data hdata
    simp only [State.nextData, State.yieldByte_iter, State.yieldByte_mem, hpos, hrem] at hk ⊢
    rw [Nat.add_assoc, Nat.add_comm 1 k]
    exact h hphase (k + 1) (by omega)
  case h_3 => exact nofun
  case h_4 => exact h

/-- A change of memory within bytes that spare the borrowed message changes no byte of the block. -/
theorem State.BlockNonZero.of_spared {s t : State} (h : s.BlockNonZero) (hsound : s.iter.sound = true)
    (hiter : t.iter = s.iter) (hplace : t.place = s.place) {base n : Nat}
    (hspared : s.iter.phase = .done ∨ rangesMeet base n (s.addr .src 0) s.iter.n = false)
    (hmem : s.mem.SameOutside t.mem base n) : t.BlockNonZero := by
  intro hdata k hk
  rw [hiter] at hdata hk ⊢
  obtain ⟨_, _, _, hfits, _⟩ := (Iter.sound_iff _).mp hsound
  have hend := (hfits hdata).2.end_le
  have haddr : t.addr .src (s.iter.pos + k) = s.addr .src 0 + (s.iter.pos + k) := by
    simp only [State.addr, hplace, Nat.add_zero]
  have hout : ¬ (base ≤ s.addr .src 0 + (s.iter.pos + k) ∧ s.addr .src 0 + (s.iter.pos + k) < base + n) := by
    have hapart := rangesMeet_false.mp (hspared.resolve_left (by rw [hdata]; nofun))
    exact fun hin => hapart _ hin.1 hin.2 (by omega)
  rw [haddr, hmem _ (by omega)]
  exact h hdata k hk

theorem State.sparesBorrowed_iff (s : State) (b : Buffer) (n : Nat) : s.sparesBorrowed b n = true ↔
    s.iter.phase = .done ∨ rangesMeet (s.addr b 0) n (s.addr .src 0) s.iter.n = false := by
  simp [State.sparesBorrowed]

theorem jobSparesBorrowed_idle {s : State} (h : s.job = none) : s.jobSparesBorrowed = true := by
  unfold State.jobSparesBorrowed
  rw [h]

theorem jobSparesBorrowed_busy {s : State} {j : Job} (h : s.job = some j) :
    s.jobSparesBorrowed = s.sparesBorrowed j.form.dest j.reach := by
  unfold State.jobSparesBorrowed
  rw [h]

theorem Job.cap_le_reach (j : Job) : j.cap ≤ j.reach := by
  unfold Job.reach
  cases j.form with
  | dec => exact Nat.le_refl j.cap
  | deci => exact Nat.le_max_left j.cap j.len

theorem Job.entitled_le_reach {j : Job} (h : j.ordered = true) : j.entitled ≤ j.reach := by
  obtain ⟨_, hr, _⟩ := (Job.ordered_iff j).mp h
  unfold Job.entitled Job.reach
  cases j.form with
  | dec => exact Nat.le_refl j.cap
  | deci => exact hr.trans (Nat.le_max_right j.cap j.len)

theorem advance_wf {s : State} (j : Job) (h : s.mem.wf = true) : (s.advance j).mem.wf = true := by
  rcases advance_cases s j with ⟨c, stage, he, hmoves⟩ | ⟨code, _, he⟩ <;> rw [he]
  · exact hmoves.wf h
  · exact (finishDecode_mem s j code h).1

/-- A step of a decode writes between its cursors or, at its end, what it was entitled to: within its reach (R51, U2). -/
theorem advance_sameOutside {s : State} {j : Job} (h : s.mem.wf = true) (ho : j.ordered = true) :
    s.mem.SameOutside (s.advance j).mem (s.addr j.form.dest 0) j.reach := by
  rcases advance_cases s j with ⟨c, stage, he, hmoves⟩ | ⟨code, _, he⟩ <;> rw [he]
  · have houtside : s.mem.SameOutside c.mem (s.addr j.form.dest 0 + j.w) (c.w - j.w) := hmoves.outside h
    have hend : c.w ≤ max j.w j.cap := hmoves.writeEnd
    have hcap := j.cap_le_reach
    exact fun a ha => houtside a (by omega)
  · exact (finishDecode_mem s j code h).2.1.mono (Nat.le_refl _) (Nat.add_le_add_left (Job.entitled_le_reach ho) _)

/-- The command that issues a decode. -/
def DecodeForm.command : DecodeForm → Instr
  | .dec => .dec
  | .deci => .deci

/-- What the last clause of R30 needs of a state for the block's own steps to keep it. -/
structure State.SequenceSafe (s : State) : Prop where
  sound : s.iter.sound = true
  ordered : s.cursorsOrdered = true
  wf : s.mem.wf = true
  block : s.BlockNonZero
  job : s.jobSparesBorrowed = true

namespace State.SequenceSafe

variable {s t : State}

/-- A step of a decode writes within its reach, which spares the borrowed message. -/
theorem advance (h : s.SequenceSafe) {j : Job} (hj : s.job = some j) : (s.advance j).SequenceSafe := by
  have hspared : s.sparesBorrowed j.form.dest j.reach = true := (jobSparesBorrowed_busy hj).symm.trans h.job
  have hordered : j.ordered = true := by
    have := h.ordered
    unfold State.cursorsOrdered at this
    rwa [hj] at this
  have hiter := iter_eq_of_frame_eq (s.advance_frame j)
  refine ⟨by rw [hiter]; exact h.sound, advance_ordered s j hordered, advance_wf j h.wf, ?_, ?_⟩
  · exact h.block.of_spared h.sound hiter (place_eq_of_frame_eq (s.advance_frame j))
      ((State.sparesBorrowed_iff _ _ _).mp hspared) (advance_sameOutside h.wf hordered)
  · rcases advance_cases s j with ⟨c, stage, he, _⟩ | ⟨code, _, he⟩
    · rw [he]
      exact hspared
    · rw [he]
      exact jobSparesBorrowed_idle (State.finishDecode_job _ _ _)

/-- A decode starts with a destination that the host owes to be free of borrowed bytes (R238). -/
theorem startDecode (h : s.SequenceSafe) {form : DecodeForm}
    (hd : s.issueDuty form.command = true) : (s.startDecode form).SequenceSafe := by
  refine ⟨h.sound, (Job.ordered_iff _).mpr ⟨Nat.le_refl _, Nat.zero_le _, trivial⟩, h.wf, h.block, ?_⟩
  rw [jobSparesBorrowed_busy (State.startDecode_job s form)]
  cases form with
  | dec => exact hd
  | deci =>
    have hreach : (s.newJob .deci).reach = s.argLen := Nat.max_self _
    rw [hreach]
    exact hd

theorem decodeAll (h : s.SequenceSafe) {form : DecodeForm}
    (hd : s.issueDuty form.command = true) : (s.decodeAll form).SequenceSafe :=
  runDecode_keeps (fun _ _ hu hj => hu.advance hj) _ _ (h.startDecode hd)

end State.SequenceSafe

/-- `ENC` writes within `DST[0..DST_CAP)`, whether it fails or not (R51). -/
theorem exec_enc_sameOutside {s t : State} (hm : s.mem.wf = true) (h : exec .enc s = .next t) :
    s.mem.SameOutside t.mem (s.addr .dst 0) s.dstCap := by
  obtain ⟨u, hu, _, hends⟩ := exec_enc_spec s hm (guarded_next h).1
  cases hu.symm.trans h
  split at hends
  · next hroom =>
    obtain ⟨_, _, houtside⟩ := hends
    exact houtside.mono (Nat.le_refl _) (Nat.add_le_add_left hroom _)
  · obtain ⟨_, _, _, houtside, _⟩ := hends
    exact houtside

/-- What a command leaves of the last clause of R30, if the host owed it no borrowed byte in its destination. -/
theorem State.SequenceSafe.exec {s t : State} {i : Instr} (h : s.SequenceSafe) (hj : s.job = none)
    (hd : s.issueDuty i = true) (e : exec i s = .next t) : t.BlockNonZero ∧ t.jobSparesBorrowed = true := by
  rcases exec_next e with ⟨_, _, rfl⟩ | ⟨rfl, _, rfl⟩ | ⟨rfl, _, rfl⟩ | ⟨rfl, _, rfl⟩ | ⟨_, _, rfl⟩ | ⟨_, _, rfl⟩ |
    ⟨j, hbusy, _⟩
  · exact ⟨h.block, jobSparesBorrowed_idle hj⟩
  · obtain ⟨_, _, _, hiter, _, _, hjob, hplace, _⟩ := finishEncode_fields s
      (encodeFrame s.mem (s.addr .src 0) (s.addr .dst 0) s.argLen s.dstCap)
    exact ⟨h.block.of_spared h.sound hiter hplace ((State.sparesBorrowed_iff _ _ _).mp hd)
      (exec_enc_sameOutside h.wf e), jobSparesBorrowed_idle (hjob.trans hj)⟩
  · have hsafe := h.decodeAll (form := .dec) hd
    exact ⟨hsafe.block, hsafe.job⟩
  · have hsafe := h.decodeAll (form := .deci) hd
    exact ⟨hsafe.block, hsafe.job⟩
  · exact ⟨nofun, jobSparesBorrowed_idle hj⟩
  · obtain ⟨_, _, _, _, hjob, _⟩ := nextByte_fields s
    exact ⟨nextByte_blockNonZero h.block, jobSparesBorrowed_idle (hjob.trans hj)⟩
  · rw [hj] at hbusy
    cases hbusy

/-- Every reset closes the sequence and ends the decode in progress. -/
theorem resetRegisters_blockNonZero (s : State) :
    s.resetRegisters.BlockNonZero ∧ s.resetRegisters.jobSparesBorrowed = true := ⟨nofun, rfl⟩

theorem applyReset_eq_resetRegisters (s : State) : ∃ u : State, s.applyReset = u.resetRegisters := by
  unfold State.applyReset
  split
  · exact ⟨_, rfl⟩
  · split <;> exact ⟨_, rfl⟩

/-- What an action of a host that keeps its duties leaves of the last clause of R30. -/
theorem State.SequenceSafe.hostStep {s t : State} {a : HostAction} {rest : List HostAction} (h : s.SequenceSafe)
    (hh : s.host = a :: rest) (hj : s.job = none ∨ a = .reset) (hd : s.hostDuty = true)
    (e : hostStep a { s with host := rest } = .next t) : t.BlockNonZero ∧ t.jobSparesBorrowed = true := by
  have h' : State.SequenceSafe { s with host := rest } := { h with }
  unfold State.hostDuty at hd
  rw [hh] at hd
  rcases hostStep_next e with ⟨v, rfl, _, rfl⟩ | ⟨v, rfl, _, rfl⟩ | ⟨v, i, ha, hi, he⟩ | ⟨v, form, rfl, hi, rfl⟩ |
    ⟨_, v, rfl⟩ | ⟨b, i, v, rfl, rfl⟩ | ⟨b, base, rfl, rfl⟩ | ⟨rfl, rfl⟩ | ⟨v, rfl, rfl | rfl | rfl⟩
  · exact ⟨h.block, h.job⟩
  · exact ⟨h.block, h.job⟩
  · have hduty : s.issueDuty i = true := by rcases ha with rfl | rfl <;> simpa only [hi] using hd
    have hidle : s.job = none := hj.resolve_right fun hx => by subst hx; simp at ha
    exact h'.exec hidle hduty he
  · have hduty : s.issueDuty form.command = true := by
      cases form <;> simpa only [hi, DecodeForm.command] using hd
    have hstart := h'.startDecode hduty
    exact ⟨hstart.block, hstart.job⟩
  · exact ⟨h.block, h.job⟩
  · refine ⟨h.block.of_spared h.sound rfl rfl (base := s.addr b i) (n := 1) (by simpa using hd) fun x hx => ?_, h.job⟩
    exact Memory.read_write_other h.wf v (by change x ≠ s.addr b i; omega)
  · refine ⟨?_, jobSparesBorrowed_idle (hj.resolve_right nofun)⟩
    cases b with
    | src =>
      have hdone : s.iter.phase = .done := by simpa using hd
      exact fun hdata => nomatch hdone.symm.trans hdata
    | dst => exact h.block
    | buf => exact h.block
  · obtain ⟨u, hu⟩ := applyReset_eq_resetRegisters { s with host := rest }
    rw [hu]
    exact resetRegisters_blockNonZero u
  · exact resetRegisters_blockNonZero _
  · exact resetRegisters_blockNonZero _
  · exact resetRegisters_blockNonZero _

/-- Settles O7: the fields of `ITER` by the operations of a step; the block's bytes because each write lands in a
destination that spares the borrowed message. -/
theorem stepKeepsTheIteratorInvariants : Obligations.StepKeepsTheIteratorInvariants := by
  refine ⟨⟨rfl, nofun, rfl⟩, fun s t => kept_iterSound.step, fun s t hsound hordered hwf hblock hjob hduty e => ?_⟩
  have hsafe : s.SequenceSafe := ⟨hsound, hordered, hwf, hblock, hjob⟩
  rcases step_next e with ⟨_, _, rfl⟩ | ⟨j, hj, _, rfl⟩ | ⟨a, rest, hh, hj, e⟩
  · exact ⟨hblock, hjob⟩
  · exact ⟨(hsafe.advance hj).block, (hsafe.advance hj).job⟩
  · exact hsafe.hostStep hh hj hduty e

end Sys2Proof.Machine
end

section
/-! The host's memory: its canonical form in every step, the operands for which a command is refused, and the host's own
accesses to its buffers. -/

namespace Sys2Proof.Machine

/-! ### The canonical form of memory -/

/-- `ENC` stores in a canonical memory, and what a failure leaves is canonical too. -/
theorem finishEncode_wf {s : State} (h : s.mem.wf = true) (hr : s.encRefusal = none) :
    (s.finishEncode (encodeFrame s.mem (s.addr .src 0) (s.addr .dst 0) s.argLen s.dstCap)).mem.wf = true := by
  obtain ⟨t, he, hwf, _⟩ := exec_enc_spec s h hr
  cases (guarded_of_none hr _).symm.trans he
  exact hwf

theorem nextByte_mem (s : State) : s.nextByte.mem = s.mem := by
  obtain ⟨_, _, _, _, _, hmem, _⟩ := nextByte_fields s
  exact hmem

theorem kept_memWf : Kept fun s => s.mem.wf = true where
  len _ h _ := h
  enc _ h hr := finishEncode_wf h hr
  startDecode _ _ h _ := h
  advance _ j h _ := advance_wf j h
  encsStart _ h _ := h
  encsNext s h _ := by rwa [nextByte_mem]
  argLen _ _ h _ := h
  dstCap _ _ h _ := h
  hostData _ _ h := h
  host _ _ h := h
  poke _ a v h := Memory.write_wf h a v
  place _ _ h := h
  reset _ h := h
  spoil s b n h := Memory.spoil_wf s.free (s.addr b 0) n h

/-- Settles O4: of the operations a step is made of, those that change memory write or spoil single bytes, which keeps the
form. -/
theorem stepKeepsMemoryCanonical : Obligations.StepKeepsMemoryCanonical :=
  fun _ _ => kept_memWf.step

/-! ### The operands a command is refused for -/

theorem guarded_of_some {o : Option Refusal} {r : Refusal} (h : o = some r) (s : State) : guarded o s = .refused r := by
  rw [h]
  rfl

theorem State.argLenUnwritten_iff (s : State) : s.argLenUnwritten = true ↔ s.specified.argLen = false := by
  simp [State.argLenUnwritten]

theorem State.operandsUnwritten_iff (s : State) :
    s.operandsUnwritten = true ↔ s.specified.argLen = false ∨ s.specified.dstCap = false := by
  simp [State.operandsUnwritten]

theorem State.not_operandsUnwritten_of_written {s : State} (ha : s.specified.argLen = true)
    (hc : s.specified.dstCap = true) : ¬ s.operandsUnwritten = true := by
  simp [State.operandsUnwritten_iff, ha, hc]

theorem State.messageTooLong_iff (s : State) : s.messageTooLong = true ↔ s.cfg.nMax < s.argLen := decide_eq_true_iff

theorem encRefusal_of_unwritten {s : State} (h : s.specified.argLen = false ∨ s.specified.dstCap = false) :
    s.encRefusal = some .operandUnspecified := if_pos (s.operandsUnwritten_iff.mpr h)

theorem decRefusal_of_unwritten {s : State} (h : s.specified.argLen = false ∨ s.specified.dstCap = false) :
    s.decRefusal = some .operandUnspecified := if_pos (s.operandsUnwritten_iff.mpr h)

/-- With a length of a raw message `ENC` is refused for what `DEC` is (R94). -/
theorem encRefusal_eq_decRefusal {s : State} (hn : s.argLen ≤ s.cfg.nMax) : s.encRefusal = s.decRefusal := by
  have hshort : ¬ s.messageTooLong = true := fun h => Nat.not_lt.mpr hn (s.messageTooLong_iff.mp h)
  unfold State.encRefusal State.decRefusal
  rw [if_neg hshort]

theorem encRefusal_of_tooLong {s : State} (ha : s.specified.argLen = true) (hc : s.specified.dstCap = true)
    (hn : s.cfg.nMax < s.argLen) : s.encRefusal = some .messageTooLong :=
  (if_neg (State.not_operandsUnwritten_of_written ha hc)).trans (if_pos (s.messageTooLong_iff.mpr hn))

theorem decRefusal_of_overlap {s : State} (ha : s.specified.argLen = true) (hc : s.specified.dstCap = true)
    (h : s.buffersOverlap = true) : s.decRefusal = some .buffersOverlap :=
  (if_neg (State.not_operandsUnwritten_of_written ha hc)).trans (if_pos h)

/-- A byte in both ranges shows that they meet. -/
theorem rangesMeet_of_common {a n b m x : Nat} (ha : a ≤ x) (hn : x < a + n) (hb : b ≤ x) (hm : x < b + m) :
    rangesMeet a n b m = true := by
  by_contra h
  exact rangesMeet_false.mp (Bool.eq_false_of_not_eq_true h) x ha hn ⟨hb, hm⟩

/-- Settles O52: each command's list of refusals is read down to the first that applies (log 12). -/
theorem illegalOperandsAreRefused : Obligations.IllegalOperandsAreRefused := by
  refine ⟨fun s ha => ?argLen, fun s hc => ?dstCap, fun s x ha hc hsrc hsrcEnd hdst hdstEnd => ?overlap,
    fun s ha hc hn => guarded_of_some (encRefusal_of_tooLong ha hc hn) _⟩
  case argLen =>
    have hunwritten := s.argLenUnwritten_iff.mpr ha
    exact ⟨guarded_of_some (if_pos hunwritten) _, guarded_of_some (encRefusal_of_unwritten (.inl ha)) _,
      guarded_of_some (decRefusal_of_unwritten (.inl ha)) _, guarded_of_some (if_pos hunwritten) _,
      guarded_of_some (if_pos hunwritten) _⟩
  case dstCap =>
    exact ⟨guarded_of_some (encRefusal_of_unwritten (.inr hc)) _, guarded_of_some (decRefusal_of_unwritten (.inr hc)) _⟩
  case overlap =>
    have hrefusal := decRefusal_of_overlap ha hc (rangesMeet_of_common hsrc hsrcEnd hdst hdstEnd)
    exact ⟨guarded_of_some hrefusal _, fun hn => guarded_of_some ((encRefusal_eq_decRefusal hn).trans hrefusal) _⟩

/-! ### Memory whose reads have side effects -/

/-- A byte of a buffer that lies in a window shows that the buffer touches one (R54). -/
theorem State.touchesDevice_of_mem {s : State} {base size x : Nat} (hd : (base, size) ∈ s.place.devices)
    (hbase : base ≤ x) (hsize : x < base + size) {b : Buffer} {n : Nat} (hb : s.addr b 0 ≤ x) (hn : x < s.addr b n) :
    s.touchesDevice b n = true :=
  List.any_eq_true.mpr ⟨(base, size), hd, rangesMeet_of_common hb hn hbase hsize⟩

theorem decRefusal_of_device {s : State} (ha : s.specified.argLen = true) (hc : s.specified.dstCap = true)
    (hapart : s.buffersOverlap = false)
    (h : s.touchesDevice .src s.argLen = true ∨ s.touchesDevice .dst s.dstCap = true) :
    s.decRefusal = some .deviceMemory := by
  unfold State.decRefusal
  rw [if_neg (State.not_operandsUnwritten_of_written ha hc), if_neg (Bool.eq_false_iff.mp hapart),
    if_pos ((Bool.or_eq_true _ _).mpr h)]

theorem deciRefusal_of_device {s : State} (ha : s.specified.argLen = true) (h : s.touchesDevice .buf s.argLen = true) :
    s.deciRefusal = some .deviceMemory := by
  have hwritten : ¬ s.argLenUnwritten = true := by simp [State.argLenUnwritten_iff, ha]
  exact (if_neg hwritten).trans (if_pos h)

/-- `ENCS.NEXT` reads the borrowed message in the phases HEAD and DATA (R55). -/
theorem encsNextRefusal_of_device {s : State} (hphase : s.iter.phase = .head ∨ s.iter.phase = .data)
    (h : s.touchesDevice .src s.iter.n = true) : s.encsNextRefusal = some .deviceMemory := by
  unfold State.encsNextRefusal
  rcases hphase with hphase | hphase <;> rw [hphase] <;> exact if_pos h

/-- Settles O53: the buffer that holds the address touches its window, and no earlier refusal applies. -/
theorem deviceMemoryIsRefused : Obligations.DeviceMemoryIsRefused := by
  intro s base size x hd hbase hsize
  have htouches {b : Buffer} {n : Nat} (hb : s.addr b 0 ≤ x) (hn : x < s.addr b n) : s.touchesDevice b n = true :=
    State.touchesDevice_of_mem hd hbase hsize hb hn
  refine ⟨fun ha hb hn => ?deci, fun ha hc hapart hin => ?dec, fun hphase hb hn => ?encsNext⟩
  case deci => exact guarded_of_some (deciRefusal_of_device ha (htouches hb hn)) _
  case dec =>
    have hrefusal : s.decRefusal = some .deviceMemory :=
      decRefusal_of_device ha hc hapart (hin.imp (fun ⟨hb, hn⟩ => htouches hb hn) fun ⟨hb, hn⟩ => htouches hb hn)
    exact ⟨guarded_of_some hrefusal _, fun hlen => guarded_of_some ((encRefusal_eq_decRefusal hlen).trans hrefusal) _⟩
  case encsNext => exact guarded_of_some (encsNextRefusal_of_device hphase (htouches hb hn)) _

/-! ### The host at its buffers -/

@[simp] theorem Placement.move_devices (p : Placement) (b : Buffer) (base : Nat) :
    (p.move b base).devices = p.devices := by
  cases b <;> rfl

theorem Placement.base_move (p : Placement) (b c : Buffer) (base : Nat) :
    (p.move b base).base c = if c = b then base else p.base c := by
  cases b <;> cases c <;> rfl

/-- The host reads the byte that memory holds (R33), and nothing else changes. -/
theorem step_peek {s : State} {b : Buffer} {i : Nat} {v : Byte} {rest : List HostAction} (hj : s.job = none)
    (hh : s.host = .peek b i :: rest) (hv : s.mem.read (s.addr b i) = v) :
    step s = .next { s with host := rest, hostData := v.toNat } := by
  subst hv
  exact step_hostAction hj hh

/-- Settles O60: each action of the host is one operation on memory or placement, and a write is read back where it
landed. -/
theorem hostReadsWritesAndMovesItsBuffers : Obligations.HostReadsWritesAndMovesItsBuffers := by
  refine ⟨fun s b i v rest hj hm hh => ?poke, fun s b i rest hj hh => step_peek hj hh rfl,
    fun s b base rest hj hh => ?move⟩
  case poke =>
    have hread : (s.mem.write (s.addr b i) v).read (s.addr b i) = v := Memory.read_write_self hm _ v
    refine ⟨{ s with mem := s.mem.write (s.addr b i) v, host := .peek b i :: rest }, step_hostAction hj hh, rfl,
      fun a ha => Memory.read_write_other hm v ?_, step_peek hj rfl hread⟩
    omega
  case move =>
    refine ⟨_, step_hostAction hj hh, rfl, Placement.move_devices _ _ _, fun c i => ?_⟩
    simp only [State.addr, Placement.base_move]
    split <;> rfl

end Sys2Proof.Machine
end

section
/-! The words of the opcode table, read and written in their four spaces. -/

namespace Sys2Proof

open Machine (decodeLengthByte_shape)

/-! ### Decoding what the encoder wrote -/

/-- Settles O14, row by row: only the implied zero has an operand, and well-formedness keeps it off the terminator. -/
theorem decodeOfEncodeIsTheInstruction : Obligations.DecodeOfEncodeIsTheInstruction := by
  intro i rest hwf
  cases i with
  | fpImpliedZero b =>
    have hb : b ≠ 0 := by simpa [Instr.wf] using hwf
    exact congrArg Except.ok (if_neg hb)
  | _ => rfl

/-! ### What the decoder accepts -/

theorem Instr.wf_of_position_ne_follow {i : Instr} (h : i.position ≠ .follow) : i.wf = true := by
  unfold Instr.wf
  split
  · exact absurd rfl h
  · rfl

/-- What `decode` answers for a byte that a space has a word for: the row with that word, in that space. -/
structure Instr.RowOf (i : Instr) (p : Position) (b : Byte) : Prop where
  word : i.word = b
  position : i.position = p
  wf : i.wf = true

theorem decodeCommand_word : ∀ code : BitVec 3, (decodeCommand code).word = code.setWidth 8 := by decide

theorem decodeCommand_position : ∀ code : BitVec 3, (decodeCommand code).position = .command := by decide

theorem decodeStatus_word : ∀ code : BitVec 2, (decodeStatus code).word = code.setWidth 8 := by decide

theorem decodeStatus_position : ∀ code : BitVec 2, (decodeStatus code).position = .status := by decide

/-- A byte that fits the narrower word of its space is that word (R91, R203). -/
theorem setWidth_setWidth_of_fits {n : Nat} {b : Byte} (h : b.toNat < 2 ^ n) : (b.setWidth n).setWidth 8 = b := by
  apply BitVec.eq_of_toNat_eq
  rw [BitVec.toNat_setWidth, BitVec.toNat_setWidth, Nat.mod_eq_of_lt h, Nat.mod_eq_of_lt b.isLt]

theorem decodeCommand_rowOf {b : Byte} (h : b.toNat < 8) : (decodeCommand (b.setWidth 3)).RowOf .command b where
  word := (decodeCommand_word _).trans (setWidth_setWidth_of_fits h)
  position := decodeCommand_position _
  wf := Instr.wf_of_position_ne_follow (by rw [decodeCommand_position]; nofun)

theorem decodeStatus_rowOf {b : Byte} (h : b.toNat < 4) : (decodeStatus (b.setWidth 2)).RowOf .status b where
  word := (decodeStatus_word _).trans (setWidth_setWidth_of_fits h)
  position := decodeStatus_position _
  wf := Instr.wf_of_position_ne_follow (by rw [decodeStatus_position]; nofun)

theorem decodeLengthByte_rowOf (b : Byte) : (decodeLengthByte b).RowOf .lengthByte b where
  word := (decodeLengthByte_shape b).1
  position := (decodeLengthByte_shape b).2
  wf := Instr.wf_of_position_ne_follow (by rw [(decodeLengthByte_shape b).2]; nofun)

theorem decodeFollow_rowOf (b : Byte) : (decodeFollow b).RowOf .follow b := by
  unfold decodeFollow
  split
  next hb => exact ⟨hb.symm, rfl, rfl⟩
  next hb => exact ⟨rfl, rfl, by simpa [Instr.wf] using hb⟩

theorem decode_rowOf {p : Position} {b : Byte} {rest : List Byte} {i : Instr} (h : decode p (b :: rest) = .ok i) :
    i.RowOf p b := by
  unfold decode at h
  cases p with
  | command =>
    simp only at h
    split at h
    next hfits => cases h; exact decodeCommand_rowOf hfits
    next => cases h
  | lengthByte => cases h; exact decodeLengthByte_rowOf b
  | follow => cases h; exact decodeFollow_rowOf b
  | status =>
    simp only at h
    split at h
    next hfits => cases h; exact decodeStatus_rowOf hfits
    next => cases h

/-- Settles O15: in each space the row the decoder answers has the byte as its word. -/
theorem encodeOfDecodeIsTheWord : Obligations.EncodeOfDecodeIsTheWord := by
  intro p b rest i h
  have hrow := decode_rowOf h
  exact ⟨congrArg (fun w => [w]) hrow.word, hrow.position, hrow.wf⟩

/-- Settles O16, word by word of the table. -/
theorem someWordsDecodeAsTheTableSays : Obligations.SomeWordsDecodeAsTheTableSays := by
  unfold Obligations.SomeWordsDecodeAsTheTableSays
  decide

end Sys2Proof
end

section
/-! The rows of the opcode table at work: those a decode meets at a length byte, at a follow position and at its end,
and the reserved codes. -/

namespace Sys2Proof.Machine

/-! ### The rows at a length byte -/

theorem Memory.holds_store {m : Memory} (hm : m.wf = true) (base : Nat) (bs : List Byte) :
    (m.store base bs).Holds base bs := Memory.slice_store base bs hm

theorem Memory.sameOutside_store {m : Memory} (hm : m.wf = true) (base : Nat) (bs : List Byte) :
    m.SameOutside (m.store base bs) base bs.length := fun _ ha => Memory.read_store_outside base bs hm ha

theorem toNat_pos_of_ne_zero {c : Byte} (hc : c ≠ 0x00) : 0 < c.toNat :=
  Nat.pos_of_ne_zero fun h => hc (BitVec.eq_of_toNat_eq h)

/-- A row of the length-byte position, run at a length byte of the input, is the decoder's step for its own byte. -/
theorem exec_of_lengthValue {i : Instr} {c : Byte} {s : State} {j : Job} (hi : i.lengthValue? = some c)
    (hj : s.job = some j) (hstage : j.stage = .lengthByte) (hr : j.r < j.len) :
    exec i s = .next (s.takeLengthByte j c) := by
  obtain ⟨hposition, hword⟩ : i.position = .lengthByte ∧ i.word = c := by simpa [Instr.lengthValue?] using hi
  rw [exec_lengthByteRow i hposition, hword]
  unfold lengthByteRow
  rw [hj]
  exact if_pos ⟨hstage, hr⟩

/-- A block that the input holds and the destination has room for (R84, R152): its length byte and its data bytes are
consumed, the data bytes stored at the write cursor. -/
theorem takeLengthByte_of_fits {c : Byte} {s : State} {j : Job} (hc : c ≠ 0x00) (hm : s.mem.wf = true)
    (ha : Job.Apart (j.srcBase s) (j.dstBase s) j.len j.cap j.r j.w) (hin : j.r + c.toNat ≤ j.len)
    (hroom : j.w + (c.toNat - 1) ≤ j.cap) :
    s.takeLengthByte j c = s.withCursors j
      ⟨s.mem.store (j.dstBase s + j.w) (s.mem.slice (j.srcBase s + j.r + 1) (c.toNat - 1)), j.r + c.toNat,
        j.w + (c.toNat - 1)⟩
      (if c = 0xFF then .lengthByte else .follow) := by
  have hpos := toNat_pos_of_ne_zero hc
  have hk : c.toNat - 1 ≤ j.len - (j.r + 1) := by omega
  have hr : j.r + 1 ≤ j.len := by omega
  have hw : j.w ≤ j.cap := by omega
  have ha' : Job.Apart (j.srcBase s) (j.dstBase s) j.len j.cap (j.r + 1) j.w :=
    ha.imp_right fun ⟨hsame, hwr⟩ => ⟨hsame, by omega⟩
  have hcopy := copyBlock_spec (dataCount c) ⟨s.mem, j.r + 1, j.w⟩ hm hr hw ha'
  simp only [dataCount, Nat.min_eq_left hk, Memory.slice_length, if_pos hroom, if_pos hk] at hcopy
  unfold State.takeLengthByte
  simp only [if_neg hc, dataCount, hcopy]
  rw [show j.r + 1 + (c.toNat - 1) = j.r + c.toNat by omega, Nat.add_assoc]

/-- What every row but LB.INVALID does with a block that fits, said of the state it answers. -/
theorem exec_block_of_fits {i : Instr} {c : Byte} {s : State} {j : Job} (hi : i.lengthValue? = some c) (hc : c ≠ 0x00)
    (hj : s.job = some j) (hstage : j.stage = .lengthByte) (hm : s.mem.wf = true)
    (ha : Job.Apart (j.srcBase s) (j.dstBase s) j.len j.cap j.r j.w) (hin : j.r + c.toNat ≤ j.len)
    (hroom : j.w + (c.toNat - 1) ≤ j.cap) :
    ∃ t, exec i s = .next t ∧
      t = { s with
        mem := t.mem
        job := some { j with
          r := j.r + c.toNat, w := j.w + (c.toNat - 1), stage := if c = 0xFF then .lengthByte else .follow } } ∧
      t.mem.Holds (j.dstBase s + j.w) (s.mem.slice (j.srcBase s + j.r + 1) (c.toNat - 1)) ∧
      s.mem.SameOutside t.mem (j.dstBase s + j.w) (c.toNat - 1) := by
  have hpos := toNat_pos_of_ne_zero hc
  have hexec := exec_of_lengthValue hi hj hstage (by omega)
  rw [takeLengthByte_of_fits hc hm ha hin hroom] at hexec
  have hframe := Memory.sameOutside_store hm (j.dstBase s + j.w) (s.mem.slice (j.srcBase s + j.r + 1) (c.toNat - 1))
  rw [Memory.slice_length] at hframe
  exact ⟨_, hexec, rfl, Memory.holds_store hm _ _, hframe⟩

/-- Settles O44: a bounded block is one that fits and is no continuation. -/
theorem boundedRowsCopyTheirDataBytes : Obligations.BoundedRowsCopyTheirDataBytes := by
  intro i c s j hi hc hff hj hstage hm ha hin hroom
  have h := exec_block_of_fits hi hc hj hstage hm ha hin hroom
  rwa [if_neg hff] at h

/-- Settles O45: the continuation block is the block of length byte 0xFF. -/
theorem continuationRowGoesToALengthByte : Obligations.ContinuationRowGoesToALengthByte :=
  fun _ _ hj hstage hm ha hin hroom =>
    exec_block_of_fits (i := .lbCont) (c := 0xFF) rfl (by decide) hj hstage hm ha hin hroom

/-! ### The row of an implied zero -/

theorem exec_fpImpliedZero {s : State} {j : Job} (b : Byte) (hj : s.job = some j) (hstage : j.stage = .follow)
    (hr : j.r < j.len) : exec (.fpImpliedZero b) s = .next (s.takeImpliedZero j) := by
  change followRow State.takeImpliedZero s = _
  unfold followRow
  rw [hj]
  exact if_pos ⟨hstage, hr⟩

theorem takeImpliedZero_room {s : State} {j : Job} (h : j.w < j.cap) : s.takeImpliedZero j =
    s.withCursors j ⟨s.mem.write (j.dstBase s + j.w) 0x00, j.r, j.w + 1⟩ .lengthByte := by
  unfold State.takeImpliedZero
  rw [putByte_room _ _ h]

theorem takeImpliedZero_full {s : State} {j : Job} (h : j.cap ≤ j.w) : s.takeImpliedZero j =
    s.withCursors j ⟨s.mem, j.r, j.w⟩ (.ended .bufferTooSmall) := by
  unfold State.takeImpliedZero
  rw [putByte_full _ _ h]

/-- Settles O49: the one `put` of the row finds room or not. -/
theorem impliedZeroRowWritesAZero : Obligations.ImpliedZeroRowWritesAZero := by
  intro b s j hj hstage hr hm
  have hexec := exec_fpImpliedZero b hj hstage hr
  constructor
  · intro hroom
    rw [takeImpliedZero_room hroom] at hexec
    exact ⟨_, hexec, rfl, Memory.read_write_self hm _ _, fun a ha => Memory.read_write_other hm _ (by omega)⟩
  · intro hfull
    rw [takeImpliedZero_full hfull] at hexec
    exact hexec

/-! ### The step inside a decode -/

theorem step_engineStep {s : State} {j : Job} (hj : s.job = some j) (hr : s.resetPending = false) :
    step s = engineStep j s := by
  unfold step
  rw [hr, hj]
  rfl

theorem engineStep_of_fetch {s : State} {j : Job} {i : Instr} (h : fetchWire j s = some i) :
    engineStep j s = exec i s := by
  unfold engineStep
  rw [h]

theorem fetchWire_lengthByte {s : State} {j : Job} (hstage : j.stage = .lengthByte) (hr : j.r < j.len) :
    fetchWire j s = some (decodeLengthByte (j.byteAt s)) := by
  unfold fetchWire
  rw [hstage]
  exact if_pos hr

theorem fetchWire_follow {s : State} {j : Job} (hstage : j.stage = .follow) (hr : j.r < j.len) :
    fetchWire j s = some (decodeFollow (j.byteAt s)) := by
  unfold fetchWire
  rw [hstage]
  exact if_pos hr

theorem fetchWire_ended {s : State} {j : Job} {code : StatusCode} (hstage : j.stage = .ended code) :
    fetchWire j s = some (decodeStatus code.bits) := by
  unfold fetchWire
  rw [hstage]

/-- Settles O10: the engine's position decides which of its three decoders reads the row. -/
theorem stepRunsTheRowAtTheCursor : Obligations.StepRunsTheRowAtTheCursor := by
  intro s j hj hreset
  rw [step_engineStep hj hreset]
  exact ⟨fun hstage hr => engineStep_of_fetch (fetchWire_lengthByte hstage hr),
    fun hstage hr => engineStep_of_fetch (fetchWire_follow hstage hr),
    fun _ hstage => engineStep_of_fetch (fetchWire_ended hstage)⟩

/-! ### The reserved codes -/

/-- Settles O51: neither code has an effect, to run at once, to stop before, or to reset during. -/
theorem reservedCodesAreRefused : Obligations.ReservedCodesAreRefused := by
  intro s
  refine ⟨rfl, rfl, fun rest v hv hj hh => ?_⟩
  rcases hh with hwrite | hissue | hreset
  · rw [step_hostAction hj hwrite]
    rcases hv with rfl | rfl <;> rfl
  · rw [step_hostAction hj hissue]
    rcases hv with rfl | rfl <;> rfl
  · rw [step_hostAction hj hreset]
    rcases hv with rfl | rfl <;> rfl

end Sys2Proof.Machine
end

section
/-! The Length Calculator: what `LEN` posts for a legal length, and its refusal beyond `N_MAX`
(40_length_calculator.md). -/

namespace Sys2Proof.Machine

theorem lenRefusal_of_tooLong {s : State} (ha : s.specified.argLen = true) (hn : s.cfg.nMax < s.argLen) :
    s.lenRefusal = some .messageTooLong := by
  have hwritten : ¬ s.argLenUnwritten = true := by simp [State.argLenUnwritten_iff, ha]
  exact (if_neg hwritten).trans (if_pos (s.messageTooLong_iff.mpr hn))

theorem exec_len_of_legal {s : State} (h : s.LengthLegal) : exec .len s = .next (s.postOk (maxEncodedLen s.argLen)) :=
  guarded_of_none ((lenRefusal_none s).mpr h) _

theorem exec_len_of_tooLong {s : State} (ha : s.specified.argLen = true) (hn : s.cfg.nMax < s.argLen) :
    exec .len s = .refused .messageTooLong :=
  guarded_of_some (lenRefusal_of_tooLong ha hn) _

/-- Settles O17: the state posted with OK and doc00's formula is, field by field, the one the statement writes out. -/
theorem lenPostsTheFormula : Obligations.LenPostsTheFormula :=
  ⟨rfl, fun _ => ⟨exec_len_of_legal, exec_len_of_tooLong⟩⟩

end Sys2Proof.Machine
end

section
/-! The Block Encoder, buffer to buffer: the exact length of an encoding, and how `ENC` ends (41_block_encoder.md). -/

namespace Sys2Proof.Machine

/-! ### The length of an encoding -/

/-- Every block adds its length byte to the run, and every block but a continuation or the last consumes a zero byte of
the message in its place (R121). -/
theorem Ref.blocksOf_length {fuel : Nat} {m : List Byte} (h : m.length < fuel) :
    (Ref.blocksOf fuel m).length = m.length + Ref.contsOf fuel m + 1 := by
  induction fuel generalizing m with
  | zero => exact absurd h (Nat.not_lt_zero _)
  | succ fuel ih =>
    have hrun := Ref.runLen_le_length m
    unfold Ref.blocksOf Ref.contsOf
    cases hkind : Ref.runKind m with
    | cont =>
      have hl := Ref.runKind_cont hkind
      have hrest := ih (m := m.drop 254) (by rw [List.length_drop]; omega)
      simp only [List.length_cons, List.length_append, List.length_take, List.length_drop, hrest]
      omega
    | zero =>
      obtain ⟨_, hl⟩ := Ref.runKind_zero hkind
      have hrest := ih (m := m.drop (Ref.runLen m + 1)) (by rw [List.length_drop]; omega)
      simp only [List.length_cons, List.length_append, List.length_take, List.length_drop, hrest]
      omega
    | fin =>
      obtain ⟨hl, _⟩ := Ref.runKind_fin hkind
      simp only [List.length_cons, List.length_take]
      omega

/-- A continuation block consumes 254 bytes of the message. -/
theorem Ref.contsOf_le (fuel : Nat) (m : List Byte) : Ref.contsOf fuel m ≤ m.length / 254 := by
  induction fuel generalizing m with
  | zero => exact Nat.zero_le _
  | succ fuel ih =>
    have hrun := Ref.runLen_le_length m
    unfold Ref.contsOf
    cases hkind : Ref.runKind m with
    | cont =>
      have hl := Ref.runKind_cont hkind
      have hrest := ih (m.drop 254)
      rw [List.length_drop] at hrest
      simp only
      omega
    | zero =>
      have hrest := ih (m.drop (Ref.runLen m + 1))
      rw [List.length_drop] at hrest
      simp only
      omega
    | fin => exact Nat.zero_le _

/-- Only a zero byte ends a run before 254 bytes and before the message's end (R120). -/
theorem Ref.runKind_ne_zero {m : List Byte} (h : ∀ b ∈ m, b ≠ 0) : Ref.runKind m ≠ .zero :=
  fun hkind => h 0 (List.mem_of_getElem? (Ref.runKind_zero_byte hkind)) rfl

/-- Without a zero byte every block but the last is a continuation. -/
theorem Ref.contsOf_nonzero {fuel : Nat} {m : List Byte} (h : m.length < fuel) (hm : ∀ b ∈ m, b ≠ 0) :
    Ref.contsOf fuel m = m.length / 254 := by
  induction fuel generalizing m with
  | zero => exact absurd h (Nat.not_lt_zero _)
  | succ fuel ih =>
    have hrun := Ref.runLen_le_length m
    unfold Ref.contsOf
    cases hkind : Ref.runKind m with
    | cont =>
      have hl := Ref.runKind_cont hkind
      have hrest := ih (m := m.drop 254) (by rw [List.length_drop]; omega) fun b hb => hm b (List.mem_of_mem_drop hb)
      rw [List.length_drop] at hrest
      simp only
      omega
    | zero => exact absurd hkind (Ref.runKind_ne_zero hm)
    | fin =>
      obtain ⟨_, hshort⟩ := Ref.runKind_fin hkind
      exact (Nat.div_eq_of_lt hshort).symm

/-- The terminator is the one byte of an encoding outside its blocks (R122). -/
theorem Ref.enc_length (m : List Byte) : (Ref.enc m).length = m.length + Ref.conts m + 2 := by
  have hblocks := Ref.blocksOf_length (Nat.lt_succ_self m.length)
  unfold Ref.enc Ref.blocks Ref.conts
  rw [List.length_append, List.drop_zero, hblocks]
  rfl

/-- Settles O18, each part by induction over the blocks. -/
theorem encodingHasItsExactLength : Obligations.EncodingHasItsExactLength :=
  fun m => ⟨Ref.enc_length m, Ref.contsOf_le _ m, Ref.contsOf_nonzero (Nat.lt_succ_self _)⟩

/-! ### How `ENC` ends -/

/-- Settles O26: with room for the frame `ENC` emits all of it. -/
theorem encWritesTheFrame : Obligations.EncWritesTheFrame := by
  intro s hm hn hlegal hroom
  obtain ⟨t, he, _, hends⟩ := exec_enc_spec s hm ((encRefusal_none s).mpr ⟨hn, hlegal⟩)
  rw [if_pos hroom] at hends
  exact ⟨t, he, hends⟩

/-- Settles O28: without room for the frame `ENC` emits what fits of it. -/
theorem failedEncLeavesAPrefix : Obligations.FailedEncLeavesAPrefix := by
  intro s hm hn hlegal hfull
  obtain ⟨t, he, _, hends⟩ := exec_enc_spec s hm ((encRefusal_none s).mpr ⟨hn, hlegal⟩)
  rw [if_neg (Nat.not_le_of_lt hfull)] at hends
  exact ⟨t, he, hends⟩

theorem exec_enc_status {s : State} (hm : s.mem.wf = true) (hn : s.argLen ≤ s.cfg.nMax) (hlegal : s.OperandsLegal) :
    ∃ t, exec .enc s = .next t ∧ t.status = if (Ref.enc (s.input .src)).length ≤ s.dstCap then 0 else 1 := by
  obtain ⟨t, he, hstatus, _⟩ := exec_enc_reports hm hn hlegal
  refine ⟨t, he, hstatus.trans ?_⟩
  unfold Ref.cut
  split <;> rfl

/-- Settles O27: the frame fits or it does not, and the need is never below 2. -/
theorem encFailsExactlyBelowTheNeed : Obligations.EncFailsExactlyBelowTheNeed := by
  intro s hm hn hlegal
  have hneed : (Ref.enc (s.input .src)).length = s.argLen + Ref.conts (s.input .src) + 2 := by
    rw [Ref.enc_length, State.input, Memory.slice_length]
  obtain ⟨t, he, hstatus⟩ := exec_enc_status hm hn hlegal
  rw [hneed] at hstatus
  refine ⟨hneed, t, he, ?_⟩
  by_cases hroom : s.argLen + Ref.conts (s.input .src) + 2 ≤ s.dstCap
  · rw [hstatus, if_pos hroom]
    exact ⟨⟨nofun, fun h => by omega⟩, ⟨fun _ => hroom, fun _ => rfl⟩, fun h => by omega⟩
  · rw [hstatus, if_neg hroom]
    exact ⟨⟨fun _ => by omega, fun _ => rfl⟩, ⟨nofun, fun h => absurd h hroom⟩, fun _ => rfl⟩

end Sys2Proof.Machine
end

section
/-! The Block Encoder as a lazy sequence: what each phase of `ITER` yields, and that the whole sequence is the frame
(41_block_encoder.md R131 to R134). -/

namespace Sys2Proof.Machine

/-! ### `ENCS.START` -/

theorem exec_encsStart_of_legal {s : State} (h : s.LengthLegal) :
    exec .encsStart s = .next (({ s with iter := ⟨s.argLen, 0, 0, .fin, .head⟩ }).postStatus .ok) :=
  guarded_of_none ((encsStartRefusal_none s).mpr h) _

/-- `ENCS.START` is refused for what `LEN` is (R94). -/
theorem exec_encsStart_of_tooLong {s : State} (ha : s.specified.argLen = true) (hn : s.cfg.nMax < s.argLen) :
    exec .encsStart s = .refused .messageTooLong :=
  guarded_of_some (lenRefusal_of_tooLong ha hn) _

/-- Settles O29: the state bound and rewound is, field by field, the one the statement writes out. -/
theorem encsStartBindsAndRewinds : Obligations.EncsStartBindsAndRewinds :=
  ⟨rfl, fun _ => ⟨exec_encsStart_of_legal, exec_encsStart_of_tooLong⟩⟩

/-! ### `ENCS.NEXT`, phase by phase -/

theorem exec_encsNext_of_readable {s : State} (hoff : s.touchesDevice .src s.iter.n = false) :
    exec .encsNext s = .next s.nextByte :=
  guarded_of_none ((encsNextRefusal_none s).mpr fun _ => hoff) _

/-- The phases TERM and DONE read no memory (R132, R134). -/
theorem exec_encsNext_of_not_reading {s : State} (h : s.iter.phase = .term ∨ s.iter.phase = .done) :
    exec .encsNext s = .next s.nextByte := by
  refine guarded_of_none ((encsNextRefusal_none s).mpr fun hreads => ?_) _
  rcases h with h | h <;> rw [h] at hreads <;> exact absurd hreads (by decide)

theorem nextByte_of_head {s : State} (h : s.iter.phase = .head) : s.nextByte = s.nextHead := by
  unfold State.nextByte
  rw [h]

theorem nextByte_of_data {s : State} (h : s.iter.phase = .data) : s.nextByte = s.nextData := by
  unfold State.nextByte
  rw [h]

theorem nextByte_of_term {s : State} (h : s.iter.phase = .term) : s.nextByte = s.nextTerm := by
  unfold State.nextByte
  rw [h]

theorem nextByte_of_done {s : State} (h : s.iter.phase = .done) : s.nextByte = s.yieldNothing := by
  unfold State.nextByte
  rw [h]

/-- `settle()`, field by field (R132). -/
theorem Iter.settle_eq (it : Iter) : it.settle = { it with
    pos := if it.rem = 0 ∧ it.tail = .zero then it.pos + 1 else it.pos
    phase := if 0 < it.rem then .data else if it.tail = .fin then .term else .head } := by
  unfold Iter.settle
  by_cases hmore : 0 < it.rem
  · simp only [if_pos hmore, if_neg fun h : it.rem = 0 ∧ it.tail = .zero => Nat.ne_of_gt hmore h.1]
  · have hrem : it.rem = 0 := Nat.eq_zero_of_not_pos hmore
    rw [if_neg hmore]
    cases htail : it.tail <;> simp [hrem]

theorem runLengthByte_eq (l : Nat) (kind : RunKind) :
    runLengthByte l kind = if kind = .cont then 0xFF else BitVec.ofNat 8 (l + 1) := by
  cases kind <;> rfl

/-- Settles O30: the scan is the reference's run, and the block it opens is settled. -/
theorem encsNextYieldsALengthByteInHead : Obligations.EncsNextYieldsALengthByteInHead := by
  intro s hphase hpos hoff
  have hscan := scanRun_eq s.mem (s.addr .src 0) s.iter.n s.iter.pos hpos
  rw [exec_encsNext_of_readable hoff, nextByte_of_head hphase]
  unfold State.nextHead
  simp only [hscan, Iter.settle_eq, runLengthByte_eq]
  rfl

/-- Settles O31: one byte less of the block is left when it is settled. -/
theorem encsNextYieldsADataByteInData : Obligations.EncsNextYieldsADataByteInData := by
  intro s hphase hoff
  rw [exec_encsNext_of_readable hoff, nextByte_of_data hphase]
  unfold State.nextData
  simp only [Iter.settle_eq, Nat.sub_eq_zero_iff_le, Nat.sub_pos_iff_lt]
  rfl

/-- Settles O32: the row of phase TERM reads no memory, so nothing refuses it. -/
theorem encsNextYieldsTheTerminatorInTerm : Obligations.EncsNextYieldsTheTerminatorInTerm := by
  intro s hphase
  rw [exec_encsNext_of_not_reading (.inl hphase), nextByte_of_term hphase]
  rfl

theorem exec_encsNext_of_done {s : State} (h : s.iter.phase = .done) : exec .encsNext s = .next s.yieldNothing := by
  rw [exec_encsNext_of_not_reading (.inr h), nextByte_of_done h]

/-- Settles O33: the free value of `SDATA` is drawn by a counter that stands outside memory (log 6). -/
theorem encsNextYieldsNothingWhenDone : Obligations.EncsNextYieldsNothingWhenDone :=
  fun s hphase => ⟨s.yieldNothing, exec_encsNext_of_done hphase, rfl,
    fun m => exec_encsNext_of_done (s := { s with mem := m }) hphase⟩

/-! ### The encoding, block by block -/

/-- Rounds beyond those a message takes add nothing to its blocks. -/
theorem Ref.blocksOf_fuel {fuel fuel' : Nat} {m : List Byte} (h : m.length < fuel) (h' : m.length < fuel') :
    Ref.blocksOf fuel m = Ref.blocksOf fuel' m := by
  induction fuel generalizing fuel' m with
  | zero => exact absurd h (Nat.not_lt_zero _)
  | succ fuel ih =>
    obtain ⟨fuel', rfl⟩ := Nat.exists_eq_succ_of_ne_zero (Nat.ne_zero_of_lt h')
    have hrun := Ref.runLen_le_length m
    have hrest {k : Nat} (hk : 0 < k) (hkm : k ≤ m.length) :
        Ref.blocksOf fuel (m.drop k) = Ref.blocksOf fuel' (m.drop k) :=
      ih (by rw [List.length_drop]; omega) (by rw [List.length_drop]; omega)
    unfold Ref.blocksOf
    cases hkind : Ref.runKind m with
    | cont =>
      have hl := Ref.runKind_cont hkind
      simp only [hrest (k := 254) (by omega) (by omega)]
    | zero =>
      obtain ⟨_, hl⟩ := Ref.runKind_zero hkind
      simp only [hrest (Nat.succ_pos _) hl]
    | fin => rfl

theorem Ref.blocksOf_terminated {fuel : Nat} {m : List Byte} (h : m.length < fuel) :
    Ref.blocksOf fuel m ++ [0x00] = Ref.enc m :=
  congrArg (· ++ [0x00]) (Ref.blocksOf_fuel h (Nat.lt_succ_self _))

/-- What an encoding holds behind a run that ended so, `rest` being the message behind the run (R121, R122). -/
def Ref.encAfter : RunKind → List Byte → List Byte
  | .cont, rest => Ref.enc rest
  | .zero, rest => Ref.enc (rest.drop 1)
  | .fin, _ => [0x00]

/-- An encoding is its first block, a length byte and the bytes of the run, and what comes behind that run. -/
theorem Ref.enc_eq (m : List Byte) : Ref.enc m = runLengthByte (Ref.runLen m) (Ref.runKind m) ::
    (m.take (Ref.runLen m) ++ Ref.encAfter (Ref.runKind m) (m.drop (Ref.runLen m))) := by
  have hrun := Ref.runLen_le_length m
  rw [← Ref.blocksOf_terminated (Nat.lt_succ_self m.length)]
  unfold Ref.blocksOf Ref.encAfter
  cases hkind : Ref.runKind m with
  | cont =>
    have hl := Ref.runKind_cont hkind
    simp only [hl, List.cons_append, List.append_assoc]
    rw [Ref.blocksOf_terminated (by rw [List.length_drop]; omega)]
    rfl
  | zero =>
    obtain ⟨_, hl⟩ := Ref.runKind_zero hkind
    simp only [List.cons_append, List.append_assoc, List.drop_drop]
    rw [Ref.blocksOf_terminated (by rw [List.length_drop]; omega)]
    rfl
  | fin => rfl

/-! ### The sequence -/

/-- What is still to be yielded of the block in progress and behind it, of the message `m`. -/
def Iter.blockRest (it : Iter) (m : List Byte) : List Byte :=
  (m.drop it.pos).take it.rem ++ Ref.encAfter it.tail (m.drop (it.pos + it.rem))

/-- What is still to be yielded of the encoding of the message `m` (R29, R132). -/
def Iter.pending (it : Iter) (m : List Byte) : List Byte :=
  match it.phase with
  | .done => []
  | .head => Ref.enc (m.drop it.pos)
  | .data => it.blockRest m
  | .term => [0x00]

section

variable {it : Iter} (m : List Byte)

theorem Iter.pending_of_done (h : it.phase = .done) : it.pending m = [] := by
  unfold Iter.pending
  rw [h]

theorem Iter.pending_of_head (h : it.phase = .head) : it.pending m = Ref.enc (m.drop it.pos) := by
  unfold Iter.pending
  rw [h]

theorem Iter.pending_of_data (h : it.phase = .data) : it.pending m = it.blockRest m := by
  unfold Iter.pending
  rw [h]

theorem Iter.pending_of_term (h : it.phase = .term) : it.pending m = [0x00] := by
  unfold Iter.pending
  rw [h]

end

/-- The message a sequence has borrowed (R55). -/
def State.borrowed (s : State) : List Byte := s.mem.slice (s.addr .src 0) s.iter.n

/-- `settle()` moves to the phase that yields what is left. -/
theorem Iter.settle_pending (it : Iter) (m : List Byte) : it.settle.pending m = it.blockRest m := by
  unfold Iter.settle
  by_cases hmore : 0 < it.rem
  · rw [if_pos hmore]
    rfl
  · have hrem : it.rem = 0 := Nat.eq_zero_of_not_pos hmore
    rw [if_neg hmore]
    cases htail : it.tail <;> simp [Iter.pending, Iter.blockRest, Ref.encAfter, hrem, htail]

theorem nextByte_iter_n (s : State) : s.nextByte.iter.n = s.iter.n := by
  unfold State.nextByte
  split
  · exact Iter.settle_n _
  · exact Iter.settle_n _
  · rfl
  · rfl

theorem nextByte_addr (s : State) (b : Buffer) (i : Nat) : s.nextByte.addr b i = s.addr b i := by
  obtain ⟨_, _, _, _, _, _, hplace, _⟩ := nextByte_fields s
  unfold State.addr
  rw [hplace]

theorem nextByte_borrowed (s : State) : s.nextByte.borrowed = s.borrowed := by
  unfold State.borrowed
  rw [nextByte_mem, nextByte_addr, nextByte_iter_n]

theorem nextByte_touchesDevice (s : State) (b : Buffer) (n : Nat) :
    s.nextByte.touchesDevice b n = s.touchesDevice b n := by
  obtain ⟨_, _, _, _, _, _, hplace, _⟩ := nextByte_fields s
  unfold State.touchesDevice
  rw [nextByte_addr, hplace]

/-- The length byte of the run, and then the block it opens (R121). -/
theorem nextHead_yields {s : State} (hphase : s.iter.phase = .head) (hpos : s.iter.pos ≤ s.iter.n) :
    s.iter.pending s.borrowed = s.nextHead.sdata :: s.nextHead.iter.pending s.borrowed := by
  have hscan : scanRun s.mem (s.addr .src 0) s.iter.n s.iter.pos = Ref.run s.borrowed s.iter.pos :=
    scanRun_eq _ _ _ _ hpos
  rw [Iter.pending_of_head _ hphase, Ref.enc_eq, List.drop_drop]
  unfold State.nextHead
  simp only [State.yieldByte_iter, State.yieldByte_sdata, Iter.settle_pending, hscan]
  rfl

/-- The next byte of the block, and then the rest of it. -/
theorem nextData_yields {s : State} (hphase : s.iter.phase = .data) (hrem : 1 ≤ s.iter.rem)
    (hpos : s.iter.pos < s.iter.n) :
    s.iter.pending s.borrowed = s.nextData.sdata :: s.nextData.iter.pending s.borrowed := by
  have hlen : s.iter.pos < s.borrowed.length := by simpa [State.borrowed] using hpos
  have hbyte : s.borrowed[s.iter.pos] = s.mem.read (s.addr .src s.iter.pos) :=
    Memory.slice_getElem s.mem (s.addr .src 0) s.iter.n s.iter.pos hlen
  obtain ⟨k, hk⟩ : ∃ k, s.iter.rem = k + 1 := ⟨s.iter.rem - 1, by omega⟩
  unfold State.nextData
  simp only [State.yieldByte_iter, State.yieldByte_sdata, Iter.settle_pending]
  rw [Iter.pending_of_data _ hphase, ← hbyte]
  unfold Iter.blockRest
  simp only [hk, List.drop_eq_getElem_cons hlen, List.take_succ_cons, List.cons_append, Nat.add_sub_cancel]
  rw [Nat.add_right_comm s.iter.pos 1 k, Nat.add_assoc]

/-- While a sequence is live each `ENCS.NEXT` yields the first byte of what is pending (R132). -/
theorem nextByte_yields {s : State} (hsound : s.iter.sound = true) (hlive : s.iter.phase ≠ .done) :
    s.nextByte.svalid = true ∧
    s.iter.pending s.borrowed = s.nextByte.sdata :: s.nextByte.iter.pending s.nextByte.borrowed := by
  obtain ⟨hpos, _, _, hdata, _⟩ := (Iter.sound_iff _).mp hsound
  rw [nextByte_borrowed]
  cases hphase : s.iter.phase with
  | done => exact absurd hphase hlive
  | head =>
    rw [nextByte_of_head hphase]
    exact ⟨rfl, nextHead_yields hphase hpos⟩
  | data =>
    obtain ⟨hrem, hfits⟩ := hdata hphase
    have hend := hfits.end_le
    rw [nextByte_of_data hphase]
    exact ⟨rfl, nextData_yields hphase hrem (by omega)⟩
  | term =>
    rw [nextByte_of_term hphase]
    exact ⟨rfl, Iter.pending_of_term _ hphase⟩

/-- As many `ENCS.NEXT` as bytes are pending yield these and end the sequence. -/
theorem yieldMany_pending {s : State} (hsound : s.iter.sound = true) (hoff : s.touchesDevice .src s.iter.n = false)
    {bs : List Byte} (hbs : s.iter.pending s.borrowed = bs) :
    ∃ u, yieldMany bs.length s = some (bs, u) ∧ u.iter.phase = .done := by
  induction bs generalizing s with
  | nil =>
    refine ⟨s, rfl, ?_⟩
    by_contra hlive
    obtain ⟨_, hnext⟩ := nextByte_yields hsound hlive
    cases hbs.symm.trans hnext
  | cons b bs ih =>
    have hlive : s.iter.phase ≠ .done := fun hdone => nomatch hbs.symm.trans (Iter.pending_of_done _ hdone)
    obtain ⟨hvalid, hnext⟩ := nextByte_yields hsound hlive
    obtain ⟨hbyte, hrest⟩ := List.cons.inj (hbs.symm.trans hnext)
    have hoff' : s.nextByte.touchesDevice .src s.nextByte.iter.n = false := by
      rwa [nextByte_touchesDevice, nextByte_iter_n]
    obtain ⟨u, hu, hdone⟩ := ih (nextByte_sound hsound) hoff' hrest.symm
    refine ⟨u, ?_, hdone⟩
    simp only [List.length_cons, yieldMany, exec_encsNext_of_readable hoff, hu, hvalid, if_true, hbyte]

/-- Settles O34: behind `ENCS.START` the whole frame is pending, and a sequence with nothing pending is done. -/
theorem lazySequenceYieldsTheFrame : Obligations.LazySequenceYieldsTheFrame := by
  intro s hlegal hoff
  obtain ⟨u, hu, hdone⟩ := yieldMany_pending (s := ({ s with iter := ⟨s.argLen, 0, 0, .fin, .head⟩ }).postStatus .ok)
    (bs := Ref.enc (s.input .src)) rfl hoff rfl
  exact ⟨_, u, u.yieldNothing, exec_encsStart_of_legal hlegal, hu, exec_encsNext_of_done hdone, rfl⟩

end Sys2Proof.Machine
end

section
/-! The Block Decoder inside a decode: its cursors stay ordered, each step ends as the byte-sequential order says, and
the steps together are the command in one transition (42_block_decoder.md R151 to R161). -/

namespace Sys2Proof.Machine

/-! ### The cursors -/

theorem State.cursorsOrdered_iff (s : State) : s.cursorsOrdered = true ↔ ∀ j, s.job = some j → j.ordered = true := by
  unfold State.cursorsOrdered
  cases s.job <;> simp

/-- A decode is issued with both cursors at the start of its buffers. -/
theorem newJob_ordered (s : State) (form : DecodeForm) : (s.newJob form).ordered = true :=
  (Job.ordered_iff _).mpr ⟨Nat.le_refl _, Nat.zero_le _, trivial⟩

/-- The record of a decode is written by its issue, by its own steps and by a reset alone. -/
theorem kept_cursorsOrdered : Kept fun s => s.cursorsOrdered = true where
  len _ h _ := h
  enc s h _ := by
    obtain ⟨_, _, _, _, _, _, hjob, _⟩ := finishEncode_fields s
      (encodeFrame s.mem (s.addr .src 0) (s.addr .dst 0) s.argLen s.dstCap)
    rw [State.cursorsOrdered_iff] at h ⊢
    rwa [hjob]
  startDecode s form _ _ := newJob_ordered s form
  advance s j h hj := advance_ordered s j (s.cursorsOrdered_iff.mp h j hj)
  encsStart _ h _ := h
  encsNext s h _ := by
    obtain ⟨_, _, _, _, hjob, _⟩ := nextByte_fields s
    rw [State.cursorsOrdered_iff] at h ⊢
    rwa [hjob]
  argLen _ _ h _ := h
  dstCap _ _ h _ := h
  hostData _ _ h := h
  host _ _ h := h
  poke _ _ _ h := h
  place _ _ h := h
  reset _ _ := rfl
  spoil _ _ _ h := h

/-- Settles O6: a step of a decode consumes a byte before it writes one (R161), and every other operation leaves the
record alone, writes a new one or drops it. -/
theorem stepKeepsDecoderCursorsOrdered : Obligations.StepKeepsDecoderCursorsOrdered :=
  fun _ _ => kept_cursorsOrdered.step

/-! ### The ends of a step -/

/-- Where a byte is due and the input has ended, a step runs out (R155). -/
theorem advance_of_exhausted {s : State} {j : Job} (hend : j.len ≤ j.r)
    (hstage : j.stage = .lengthByte ∨ j.stage = .follow) : s.advance j = s.runOut j := by
  unfold State.advance
  rcases hstage with hstage | hstage <;> rw [hstage] <;> exact if_neg (Nat.not_lt.mpr hend)

/-- Settles O11: the engine advances, and its advance runs out. -/
theorem stepAtTheInputsEndRaisesTruncatedFrame : Obligations.StepAtTheInputsEndRaisesTruncatedFrame := by
  intro s j hj hreset hend hstage
  rw [step_engine hj hreset, advance_of_exhausted hend hstage]
  rfl

/-- Settles O47: the row runs the decoder's step for 0x00, which copies nothing. -/
theorem invalidRowRaisesInvalidLengthByte : Obligations.InvalidRowRaisesInvalidLengthByte :=
  fun _ _ hj hstage hr => exec_of_lengthValue (i := .lbInvalid) (c := 0x00) rfl hj hstage hr

theorem followRow_of_follow {s : State} {j : Job} (effect : State → Job → State) (hj : s.job = some j)
    (hstage : j.stage = .follow) (hr : j.r < j.len) : followRow effect s = .next (effect s j) := by
  unfold followRow
  rw [hj]
  exact if_pos ⟨hstage, hr⟩

/-- Settles O48: the row strips the terminator at its position. -/
theorem terminatorRowEndsTheDecode : Obligations.TerminatorRowEndsTheDecode :=
  fun _ _ hj hstage hr => followRow_of_follow State.takeTerminator hj hstage hr

/-! ### Blocks cut short -/

/-- A byte that is consumed leaves source and destination as far apart. -/
theorem Job.Apart.consume {src dst len cap r w : Nat} (h : Job.Apart src dst len cap r w) :
    Job.Apart src dst len cap (r + 1) w :=
  h.imp_right fun ⟨hsame, hwr⟩ => ⟨hsame, Nat.le_succ_of_le hwr⟩

theorem takeLengthByte_of_raised {c : Byte} {s : State} {j : Job} {c2 : Cursors} {code : StatusCode} (hc : c ≠ 0x00)
    (hcopy : copyBlock (j.srcBase s) (j.dstBase s) j.len j.cap (dataCount c) ⟨s.mem, j.r + 1, j.w⟩ = .raised c2 code) :
    s.takeLengthByte j c = s.withCursors j c2 (.ended code) := by
  unfold State.takeLengthByte
  simp only [if_neg hc, hcopy]

/-- A block the input ends inside of, with room for what is left of it: all of that is copied (R155 (ii)). -/
theorem takeLengthByte_of_short {c : Byte} {s : State} {j : Job} (hc : c ≠ 0x00) (hm : s.mem.wf = true)
    (ha : Job.Apart (j.srcBase s) (j.dstBase s) j.len j.cap j.r j.w) (hr : j.r < j.len)
    (hshort : j.len < j.r + c.toNat) (hroom : j.w + (j.len - j.r - 1) ≤ j.cap) :
    s.takeLengthByte j c = s.withCursors j
      ⟨s.mem.store (j.dstBase s + j.w) (s.mem.slice (j.srcBase s + (j.r + 1)) (j.len - j.r - 1)), j.len,
        j.w + (j.len - j.r - 1)⟩
      (.ended .truncatedFrame) := by
  have hk : ¬ c.toNat - 1 ≤ j.len - j.r - 1 := by omega
  have hcopy := copyBlock_spec (dataCount c) ⟨s.mem, j.r + 1, j.w⟩ hm hr (Nat.le_of_add_right_le hroom) ha.consume
  simp only [dataCount, ← Nat.sub_sub, Nat.min_eq_right (Nat.le_of_not_le hk), Memory.slice_length, if_pos hroom,
    if_neg hk] at hcopy
  exact takeLengthByte_of_raised hc hcopy

/-- A block the destination fills inside of, before the input has ended (R154, R207): what fits is copied. -/
theorem takeLengthByte_of_full {c : Byte} {s : State} {j : Job} (hc : c ≠ 0x00) (hm : s.mem.wf = true)
    (ha : Job.Apart (j.srcBase s) (j.dstBase s) j.len j.cap j.r j.w) (hr : j.r < j.len) (hw : j.w ≤ j.cap)
    (hfull : j.cap < j.w + min (c.toNat - 1) (j.len - j.r - 1)) :
    ∃ r, s.takeLengthByte j c = s.withCursors j
      ⟨s.mem.store (j.dstBase s + j.w)
        ((s.mem.slice (j.srcBase s + (j.r + 1)) (min (c.toNat - 1) (j.len - j.r - 1))).take (j.cap - j.w)), r, j.cap⟩
      (.ended .bufferTooSmall) := by
  have hcopy := copyBlock_spec (dataCount c) ⟨s.mem, j.r + 1, j.w⟩ hm hr hw ha.consume
  simp only [dataCount, ← Nat.sub_sub, Memory.slice_length, if_neg (Nat.not_le.mpr hfull)] at hcopy
  obtain ⟨r, _, _, hraised⟩ := hcopy
  exact ⟨r, takeLengthByte_of_raised hc hraised⟩

/-- Settles O46: the row is the decoder's step, and the copy of the data meets the input's end or the capacity first. -/
theorem blocksCutShortRaiseTheFirstFailureMet : Obligations.BlocksCutShortRaiseTheFirstFailureMet := by
  intro i c s j hi hc hj hstage hm ha hr hw
  have hexec := exec_of_lengthValue hi hj hstage hr
  constructor
  · intro hshort hroom
    rw [takeLengthByte_of_short hc hm ha hr hshort hroom] at hexec
    refine ⟨_, hexec, rfl, (Memory.sameOutside_store hm _ _).mono (Nat.le_refl _) ?_⟩
    rw [Memory.slice_length]
  · intro hfull
    obtain ⟨r, htake⟩ := takeLengthByte_of_full hc hm ha hr hw hfull
    rw [htake] at hexec
    exact ⟨_, r, hexec, rfl, (Memory.sameOutside_store hm _ _).mono (Nat.le_refl _)
      (Nat.add_le_add_left (List.length_take_le _ _) _)⟩

/-! ### One transition and its steps -/

theorem run_succ (M : Host.Core) {s t : M.State} (h : M.step s = .next t) (n : Nat) : M.run (n + 1) s = M.run n t := by
  rw [Host.Core.run, h]

/-- A step of a decode leaves the host's actions to come as they are. -/
theorem advance_resetPending (s : State) (j : Job) : (s.advance j).resetPending = s.resetPending := by
  obtain ⟨_, _, _, hhost, _⟩ :=
    (State.operands_eq_iff s _).mp ((State.frame_eq_iff s _).mp (s.advance_frame j)).1
  unfold State.resetPending
  rw [hhost]

/-- Without a reset the machine's steps are those of the decode, as many as it takes (R10, R31). -/
theorem run_of_runDecode (fuel : Nat) {s : State} (hreset : s.resetPending = false) :
    ∃ n, n ≤ fuel ∧ Host.Core.run Sys2Proof.core n s = .next (State.runDecode fuel s) := by
  induction fuel generalizing s with
  | zero => exact ⟨0, Nat.le_refl 0, rfl⟩
  | succ fuel ih =>
    cases hj : s.job with
    | none => exact ⟨0, Nat.zero_le _, by rw [runDecode_idle _ hj]; rfl⟩
    | some j =>
      obtain ⟨n, hn, hrun⟩ := ih ((advance_resetPending s j).trans hreset)
      refine ⟨n + 1, Nat.succ_le_succ hn, ?_⟩
      rw [runDecode_step _ hj]
      exact (run_succ Sys2Proof.core (step_engine hj hreset) n).trans hrun

/-- A decode that is not refused in one transition is not refused step by step (log 1). -/
theorem issueByBlock_of_exec {form : DecodeForm} {v : Nat} {s t : State} (hv : fetchCommand v = some form.command)
    (h : exec form.command s = .next t) : issueByBlock v s = .next (s.startDecode form) ∧ t = s.decodeAll form := by
  unfold issueByBlock
  rw [hv]
  cases form with
  | dec =>
    obtain ⟨hrefusal, ht⟩ := guarded_next h
    exact ⟨guarded_of_none hrefusal _, ht⟩
  | deci =>
    obtain ⟨hrefusal, ht⟩ := guarded_next h
    exact ⟨guarded_of_none hrefusal _, ht⟩

theorem run_of_issueByBlock {form : DecodeForm} {v : Nat} {s t : State} {rest : List HostAction}
    (hv : fetchCommand v = some form.command) (hj : s.job = none) (hh : s.host = .issueByBlock v :: rest)
    (hreset : ({ s with host := rest }).resetPending = false)
    (h : exec form.command { s with host := rest } = .next t) :
    ∃ n, n ≤ 2 * s.argLen + 3 ∧ Host.Core.run Sys2Proof.core (n + 1) s = .next t := by
  obtain ⟨hissue, rfl⟩ := issueByBlock_of_exec hv h
  obtain ⟨n, hn, hrun⟩ :=
    run_of_runDecode (2 * s.argLen + 3) (s := ({ s with host := rest }).startDecode form) hreset
  exact ⟨n, hn, (run_succ Sys2Proof.core ((step_hostAction hj hh).trans hissue) n).trans hrun⟩

/-- Settles O13: the issue stops at the decode's first step, and the steps behind it are those of the command. -/
theorem decodeInOneTransitionIsItsSteps : Obligations.DecodeInOneTransitionIsItsSteps :=
  fun _ _ _ hj hreset => ⟨fun hh => run_of_issueByBlock (form := .dec) rfl hj hh hreset,
    fun hh => run_of_issueByBlock (form := .deci) rfl hj hh hreset⟩

end Sys2Proof.Machine
end

section
/-! How `DEC` and `DECI` end, from their issue to their completion, against the reference decoder
(42_block_decoder.md R152 to R165, R168). -/

namespace Sys2Proof.Machine

/-! ### The reference decoder on an input of a command -/

theorem State.input_length (s : State) (b : Buffer) : (s.input b).length = s.argLen := Memory.slice_length _ _ _

theorem StatusCode.bits_eq_one {code : StatusCode} : code.bits = 1 ↔ code = .bufferTooSmall := by
  cases code <;> decide

/-- An input whose decoding succeeds is two bytes longer than its message (R162). -/
theorem Ref.output_length_of_ok {f : List Byte} (h : (Ref.output f).2 = .ok) :
    (Ref.output f).1.length + 2 ≤ f.length := by
  cases hdec : Ref.dec f with
  | ok q =>
    obtain ⟨hq, hused, hlen⟩ := Ref.dec_ok (out := q.1) (used := q.2) hdec
    rw [hq]
    exact hused.trans hlen
  | error code =>
    obtain ⟨hcode, hne⟩ := Ref.dec_error hdec
    exact absurd (hcode.symm.trans h) hne

/-- A destination that holds the whole output cuts nothing. -/
theorem Ref.cut_of_fits {cap : Nat} {q : List Byte × StatusCode} (h : q.1.length ≤ cap) : Ref.cut cap q = q := if_pos h

/-- One byte less than the input is room for every output, of an input that decodes or not (R168). -/
theorem Ref.cut_output {f : List Byte} {cap : Nat} (h : f.length ≤ cap + 1) :
    Ref.cut cap (Ref.output f) = Ref.output f :=
  Ref.cut_of_fits ((Ref.output_length f).trans (Nat.sub_le_of_le_add h))

theorem State.EndsFailed.status_eq {t s : State} {o : Option Job} {b : Buffer} {n : Nat} {out : List Byte}
    {code : StatusCode} (h : t.EndsFailed s o b n out code) : t.status = code.bits := by
  obtain ⟨ht, _⟩ := h
  rw [ht]

/-- The reference decoder has no BufferTooSmall to report (R168). -/
theorem State.Reports.status_ne_one {t : State} {base : Nat} {f : List Byte} (h : t.Reports base (Ref.output f)) :
    t.status ≠ 1 :=
  fun hone => Ref.decSeq_not_tooSmall _ f (StatusCode.bits_eq_one.mp (h.1.symm.trans hone))

/-! ### `DEC` -/

/-- Settles O35: the one transition is the whole decode, which the reference decoder describes at every capacity. -/
theorem decIsTheReferenceDecoderCutAtItsCapacity : Obligations.DecIsTheReferenceDecoderCutAtItsCapacity := by
  intro s hm hlegal
  refine ⟨_, guarded_of_none ((decRefusal_none s).mpr hlegal) _, ?_⟩
  obtain ⟨_, _, hapart, _⟩ := hlegal
  exact (decodeAll_ends s .dec hm (.inl hapart)).2

/-- Settles O36: the output of an input that decodes is its message, and the end OK if nothing is cut. -/
theorem decSucceedsExactlyWhenTheMessageFits : Obligations.DecSucceedsExactlyWhenTheMessageFits := by
  intro s out used hm hlegal hdec
  obtain ⟨t, he, hends⟩ := decIsTheReferenceDecoderCutAtItsCapacity s hm hlegal
  obtain ⟨hq, _⟩ := Ref.dec_ok hdec
  simp only [hq, if_true] at hends
  refine ⟨t, he, fun hfits => ?_, fun hfull => ?_⟩
  · rwa [if_pos hfits] at hends
  · rw [if_neg (Nat.not_le.mpr hfull)] at hends
    exact hends.status_eq

/-- Settles O37: the capacity cuts nothing, so the status is the reference decoder's. -/
theorem decNeverTooSmallWithOneByteLess : Obligations.DecNeverTooSmallWithOneByteLess := by
  intro s hm hlegal hcap
  obtain ⟨t, he, hreports⟩ := exec_dec_reports hm hlegal
  rw [Ref.cut_output (by rwa [State.input_length])] at hreports
  refine ⟨t, he, hreports.status_ne_one, ?_⟩
  rw [hreports.1]
  cases hdec : Ref.dec (s.input .src) with
  | ok q => exact congrArg (StatusCode.bits ·.2) (Ref.dec_ok hdec).1
  | error code => exact congrArg StatusCode.bits (Ref.dec_error hdec).1

/-! ### `DECI` -/

/-- In its own buffer a decode always has room: it ends as the reference decoder does (R160, R162). -/
theorem exec_deci_ends {s : State} (hm : s.mem.wf = true) (hlegal : s.InPlaceLegal) :
    let q := Ref.output (s.input .buf)
    ∃ t, exec .deci s = .next t ∧
      if q.2 = .ok then t.EndsOk s none .buf q.1 else t.EndsFailed s none .buf s.argLen q.1 q.2 := by
  obtain ⟨_, hends⟩ := decodeAll_ends s .deci hm (.inr ⟨rfl, Nat.le_refl _⟩)
  have hfits : (Ref.output (s.input .buf)).1.length ≤ s.argLen := by
    have hshort := Ref.output_length (s.input .buf)
    rw [State.input_length] at hshort
    exact hshort.trans (Nat.sub_le _ _)
  exact ⟨_, guarded_of_none ((deciRefusal_none s).mpr hlegal) _, (if_pos hfits).mp hends⟩

/-- Settles O38: the output of an input that decodes is its message. -/
theorem deciLeavesTheMessageAndTheRestAlone : Obligations.DeciLeavesTheMessageAndTheRestAlone := by
  intro s out used hm hlegal hdec
  obtain ⟨t, he, hends⟩ := exec_deci_ends hm hlegal
  obtain ⟨hq, _⟩ := Ref.dec_ok hdec
  simp only [hq, if_true] at hends
  exact ⟨t, he, hends⟩

/-- Settles O40: on a failure of the reference decoder the output is what was decoded before it. -/
theorem failedDeciLeavesAPrefix : Obligations.FailedDeciLeavesAPrefix := by
  intro s code hm hlegal hdec
  obtain ⟨t, he, hends⟩ := exec_deci_ends hm hlegal
  obtain ⟨hcode, hne⟩ := Ref.dec_error hdec
  simp only [hcode, if_neg hne] at hends
  exact ⟨t, he, hends⟩

theorem exec_deci_reports_output {s : State} (hm : s.mem.wf = true) (hlegal : s.InPlaceLegal) :
    ∃ t, exec .deci s = .next t ∧ t.Reports (s.addr .buf 0) (Ref.output (s.input .buf)) := by
  obtain ⟨t, he, hreports⟩ := exec_deci_reports hm hlegal
  rw [Ref.cut_output (by rw [State.input_length]; exact Nat.le_succ _)] at hreports
  exact ⟨t, he, hreports⟩

/-- Settles O39: `DECI` reports the reference decoder's end, and on OK a message two bytes shorter than the input. -/
theorem deciNeverTooSmall : Obligations.DeciNeverTooSmall := by
  intro s hm hlegal
  obtain ⟨t, he, hreports⟩ := exec_deci_reports_output hm hlegal
  refine ⟨t, he, hreports.status_ne_one, fun hzero => ?_⟩
  obtain ⟨hstatus, hmessage⟩ := hreports
  have hshort := Ref.output_length_of_ok (StatusCode.bits_eq_zero.mp (hstatus.symm.trans hzero))
  rw [State.input_length] at hshort
  rwa [(hmessage hzero).1]

/-! ### The two forms -/

/-- Settles O41: neither capacity cuts the output of the common input, which both forms report (R165). -/
theorem decAndDeciAgree : Obligations.DecAndDeciAgree := by
  intro s u hsm hum hs hu hlen hinput hcap
  obtain ⟨t, ht, htq⟩ := exec_dec_reports hsm hs
  obtain ⟨v, hv, hvq⟩ := exec_deci_reports_output hum hu
  have hdec : Ref.cut s.dstCap (Ref.output (s.input .src)) = Ref.output (s.input .src) := by
    split at hcap
    next hok => exact Ref.cut_of_fits (by rwa [(Ref.dec_ok hok).1])
    next => exact Ref.cut_output (by rw [State.input_length]; exact Nat.le_succ_of_le hcap)
  rw [hdec, hinput] at htq
  exact ⟨t, v, ht, hv, htq.agree hvq⟩

end Sys2Proof.Machine
end

section
/-! The transform of R120 to R122 and the reference decoder of R150, block by block of the grammar R86. -/

namespace Sys2Proof.Machine

/-! ### The two sorts of block -/

/-- A bounded block of the grammar R86: its length byte and its data bytes. -/
structure Ref.IsBounded (c : Byte) (d : List Byte) : Prop where
  value : c.toNat = d.length + 1
  notCont : c ≠ 0xFF
  nonzero : ∀ b ∈ d, b ≠ 0

/-- The data bytes of a continuation block of the grammar R86. -/
structure Ref.IsFull (d : List Byte) : Prop where
  length : d.length = 254
  nonzero : ∀ b ∈ d, b ≠ 0

theorem Ref.IsBounded.ne_zero {c : Byte} {d : List Byte} (h : Ref.IsBounded c d) : c ≠ 0 := by
  rintro rfl
  exact absurd h.value (by simp)

theorem Ref.IsBounded.length_lt {c : Byte} {d : List Byte} (h : Ref.IsBounded c d) : d.length < 254 := by
  have hvalue := h.value
  have hne : c.toNat ≠ 255 := fun hc => h.notCont (BitVec.eq_of_toNat_eq hc)
  have hlt := c.isLt
  omega

/-- The length byte of a bounded block is the one the encoder writes (R83). -/
theorem Ref.IsBounded.eq_ofNat {c : Byte} {d : List Byte} (h : Ref.IsBounded c d) : c = BitVec.ofNat 8 (d.length + 1) := by
  rw [← h.value, BitVec.ofNat_toNat, BitVec.setWidth_eq]

theorem Ref.IsBounded.of_lt {d : List Byte} (hlt : d.length < 254) (hd : ∀ b ∈ d, b ≠ 0) :
    Ref.IsBounded (BitVec.ofNat 8 (d.length + 1)) d := by
  have hvalue : (BitVec.ofNat 8 (d.length + 1)).toNat = d.length + 1 := by
    rw [BitVec.toNat_ofNat]
    omega
  refine ⟨hvalue, fun hcont => ?_, hd⟩
  rw [hcont] at hvalue
  exact absurd hvalue (by change ¬ 255 = _; omega)

/-- Every message is taken apart by its runs (R120): a statement holds of all of them if it holds of a run that the
message's end ends, and goes from what is behind a run, and behind the zero byte that ends it, to the whole. -/
theorem Ref.run_induction {P : List Byte → Prop}
    (last : ∀ c d, Ref.IsBounded c d → P d)
    (bounded : ∀ c d rest, Ref.IsBounded c d → P rest → P (d ++ 0 :: rest))
    (cont : ∀ d rest, Ref.IsFull d → P rest → P (d ++ rest)) (m : List Byte) : P m := by
  have hle := Ref.runLen_le_length m
  have hlen : (m.take (Ref.runLen m)).length = Ref.runLen m := List.length_take_of_le hle
  have hnonzero := Ref.run_nonzero m
  have hsplit := List.take_append_drop (Ref.runLen m) m
  cases hkind : Ref.runKind m with
  | cont =>
    have hl := Ref.runKind_cont hkind
    rw [← hsplit]
    exact cont _ _ ⟨hlen.trans hl, hnonzero⟩ (Ref.run_induction last bounded cont _)
  | zero =>
    obtain ⟨hshort, hl⟩ := Ref.runKind_zero hkind
    have hzero : m[Ref.runLen m] = 0 := List.getElem_eq_iff hl |>.mpr (Ref.runKind_zero_byte hkind)
    rw [← hsplit, List.drop_eq_getElem_cons hl, hzero]
    exact bounded _ _ _ (.of_lt (by omega) hnonzero) (Ref.run_induction last bounded cont _)
  | fin =>
    obtain ⟨hl, hshort⟩ := Ref.runKind_fin hkind
    rw [hl, List.take_length] at hnonzero
    exact last _ m (.of_lt hshort hnonzero)
termination_by m.length
decreasing_by all_goals (rw [List.length_drop]; omega)

/-! ### The encoder on a block -/

section

variable {c : Byte} {d : List Byte}

theorem Ref.runLen_append (hd : ∀ b ∈ d, b ≠ 0) (rest : List Byte) :
    Ref.runLen (d ++ rest) = min 254 (d.length + (rest.takeWhile (· != 0)).length) := by
  unfold Ref.runLen
  rw [List.takeWhile_append_of_pos fun b hb => bne_iff_ne.mpr (hd b hb), List.length_append]

theorem Ref.IsFull.enc_append (h : Ref.IsFull d) (rest : List Byte) :
    Ref.enc (d ++ rest) = 0xFF :: (d ++ Ref.enc rest) := by
  have hl : Ref.runLen (d ++ rest) = 254 := by
    rw [Ref.runLen_append h.nonzero, h.length]
    omega
  have hkind : Ref.runKind (d ++ rest) = .cont := if_pos hl
  rw [Ref.enc_eq, hkind, hl, List.take_left' h.length, List.drop_left' h.length]
  rfl

theorem Ref.IsBounded.enc_append_zero (h : Ref.IsBounded c d) (rest : List Byte) :
    Ref.enc (d ++ 0 :: rest) = c :: (d ++ Ref.enc rest) := by
  have hlt := h.length_lt
  have hl : Ref.runLen (d ++ 0 :: rest) = d.length := by
    rw [Ref.runLen_append h.nonzero]
    exact Nat.min_eq_right (Nat.le_of_lt hlt)
  have hkind : Ref.runKind (d ++ 0 :: rest) = .zero := by
    unfold Ref.runKind
    rw [hl, if_neg (by omega), if_neg (by simp)]
  rw [Ref.enc_eq, hkind, hl, List.take_left, List.drop_left, h.eq_ofNat]
  rfl

theorem Ref.IsBounded.enc_eq (h : Ref.IsBounded c d) : Ref.enc d = c :: (d ++ [0]) := by
  have hlt := h.length_lt
  have hl : Ref.runLen d = d.length := by
    have happend := Ref.runLen_append h.nonzero []
    rw [List.append_nil] at happend
    exact happend.trans (Nat.min_eq_right (Nat.le_of_lt hlt))
  have hkind : Ref.runKind d = .fin := by
    unfold Ref.runKind
    rw [hl, if_neg (by omega), if_pos rfl]
  rw [Ref.enc_eq, hkind, hl, List.take_length, h.eq_ofNat]
  rfl

/-! ### The decoder on a block -/

theorem Ref.IsFull.decGo_cons (h : Ref.IsFull d) (fuel : Nat) (f out : List Byte) (used : Nat) :
    Ref.decGo (fuel + 1) (0xFF :: (d ++ f)) out used = Ref.decGo fuel f (out ++ d) (used + (d.length + 1)) := by
  have hcount : (0xFF : Byte).toNat - 1 = d.length := h.length.symm
  have hvalue : (0xFF : Byte).toNat = d.length + 1 := by rw [h.length]; rfl
  rw [Ref.decGo, if_neg (by decide), hcount, if_neg (by simp), if_pos rfl, List.take_left, List.drop_left, hvalue]

theorem Ref.IsBounded.decGo_cons (h : Ref.IsBounded c d) (fuel : Nat) (b : Byte) (f out : List Byte) (used : Nat) :
    Ref.decGo (fuel + 1) (c :: (d ++ b :: f)) out used =
      if b = 0 then .ok (out ++ d, used + (d.length + 1) + 1)
      else Ref.decGo fuel (b :: f) (out ++ d ++ [0]) (used + (d.length + 1)) := by
  have hcount : c.toNat - 1 = d.length := by rw [h.value]; rfl
  rw [Ref.decGo, if_neg h.ne_zero, hcount, if_neg (by simp), if_neg h.notCont, List.take_left, List.drop_left, h.value]

end

end Sys2Proof.Machine
end

section
/-! The properties of the transform: the round trip, the well-formed frames, the bounds of an encoding's length and its
one zero byte (45_properties.md R180 to R193). -/

namespace Sys2Proof.Machine

/-! ### The round trip -/

/-- No block starts with 0x00, so a decoder at a follow position does not take the next block for the end. -/
theorem Ref.enc_head (m : List Byte) : ∃ b f, Ref.enc m = b :: f ∧ b ≠ 0 := by
  induction m using Ref.run_induction with
  | last c d h => exact ⟨c, _, h.enc_eq, h.ne_zero⟩
  | bounded c d rest h _ => exact ⟨c, _, h.enc_append_zero rest, h.ne_zero⟩
  | cont d rest h _ => exact ⟨0xFF, _, h.enc_append rest, by decide⟩

/-- From any point on, the decoder recovers the message of the encoding it stands at: each of its rounds takes one
block. -/
theorem Ref.decGo_enc (m : List Byte) {fuel : Nat} (hfuel : (Ref.enc m).length ≤ fuel) (out : List Byte) (used : Nat) :
    Ref.decGo fuel (Ref.enc m) out used = .ok (out ++ m, used + (Ref.enc m).length) := by
  induction m using Ref.run_induction generalizing fuel out used with
  | last c d h =>
    rw [h.enc_eq] at hfuel ⊢
    obtain ⟨fuel, rfl⟩ := Nat.exists_eq_add_one_of_ne_zero (Nat.ne_zero_of_lt hfuel)
    rw [h.decGo_cons, if_pos rfl, List.length_cons, List.length_append]
    rfl
  | bounded c d rest h ih =>
    rw [h.enc_append_zero] at hfuel ⊢
    obtain ⟨fuel, rfl⟩ := Nat.exists_eq_add_one_of_ne_zero (Nat.ne_zero_of_lt hfuel)
    obtain ⟨b, f, hhead, hb⟩ := Ref.enc_head rest
    simp only [List.length_cons, List.length_append] at hfuel ⊢
    have hrest := ih (fuel := fuel) (by omega) (out ++ d ++ [0]) (used + (d.length + 1))
    rw [hhead] at hrest ⊢
    rw [h.decGo_cons, if_neg hb, hrest]
    exact congrArg Except.ok (Prod.ext (by simp) (by simp only; omega))
  | cont d rest h ih =>
    rw [h.enc_append] at hfuel ⊢
    obtain ⟨fuel, rfl⟩ := Nat.exists_eq_add_one_of_ne_zero (Nat.ne_zero_of_lt hfuel)
    simp only [List.length_cons, List.length_append] at hfuel ⊢
    rw [h.decGo_cons, ih (by omega)]
    exact congrArg Except.ok (Prod.ext (List.append_assoc _ _ _) (by simp only; omega))

/-- Settles O23: the decoder's fuel is more than the bytes of its input. -/
theorem decodingAnEncodingGivesTheMessage : Obligations.DecodingAnEncodingGivesTheMessage := by
  intro m
  have hdec := Ref.decGo_enc m (Nat.le_succ _) [] 0
  rwa [List.nil_append, Nat.zero_add] at hdec

/-- Settles O42: the buffer's input is the encoding, and decoding that gives the message. -/
theorem deciOfAnEncodingGivesTheMessage : Obligations.DeciOfAnEncodingGivesTheMessage := by
  intro s m hm hlegal hlen hholds
  have hinput : s.input .buf = Ref.enc m := by
    rw [State.input, hlen]
    exact hholds
  have hdec : Ref.dec (s.input .buf) = .ok (m, (Ref.enc m).length) := by
    rw [hinput]
    exact decodingAnEncodingGivesTheMessage m
  obtain ⟨t, he, hends⟩ := deciLeavesTheMessageAndTheRestAlone s m _ hm hlegal hdec
  obtain ⟨hstatus, hreport⟩ := hends.reports
  exact ⟨t, he, hstatus, hreport hstatus⟩

/-- Settles O25: the reference decoder's own account of a success (R168). -/
theorem decodedMessageIsTwoBytesShorter : Obligations.DecodedMessageIsTwoBytesShorter :=
  fun _ _ _ hdec => (Ref.dec_ok hdec).2

/-! ### The well-formed frames -/

/-- Each block of the grammar is the encoding of its data bytes, and of the implied zero behind a bounded one. -/
theorem Ref.IsBlocks.exists_enc {bs : List Byte} (h : Ref.IsBlocks bs) : ∃ m, Ref.enc m = bs ++ [0] := by
  induction h with
  | last c d hc hb hd => exact ⟨d, Ref.IsBounded.enc_eq ⟨hc, hb, hd⟩⟩
  | bounded c d rest hc hb hd _ ih =>
    obtain ⟨m, hm⟩ := ih
    refine ⟨d ++ 0 :: m, ?_⟩
    rw [Ref.IsBounded.enc_append_zero ⟨hc, hb, hd⟩, hm, List.cons_append, List.append_assoc]
  | cont d rest hl hd _ ih =>
    obtain ⟨m, hm⟩ := ih
    refine ⟨d ++ m, ?_⟩
    rw [Ref.IsFull.enc_append ⟨hl, hd⟩, hm, List.cons_append, List.append_assoc]

theorem Ref.isFrame_enc (m : List Byte) : Ref.IsFrame (Ref.enc m) := by
  induction m using Ref.run_induction with
  | last c d h => exact ⟨c :: d, .last c d h.value h.notCont h.nonzero, h.enc_eq⟩
  | bounded c d rest h ih =>
    obtain ⟨bs, hbs, hrest⟩ := ih
    refine ⟨_, .bounded c d bs h.value h.notCont h.nonzero hbs, ?_⟩
    rw [h.enc_append_zero, hrest, List.cons_append, List.append_assoc]
  | cont d rest h ih =>
    obtain ⟨bs, hbs, hrest⟩ := ih
    refine ⟨_, .cont d bs h.length h.nonzero hbs, ?_⟩
    rw [h.enc_append, hrest, List.cons_append, List.append_assoc]

theorem Ref.isFrame_iff (f : List Byte) : Ref.IsFrame f ↔ ∃ m, Ref.enc m = f := by
  constructor
  · rintro ⟨bs, hbs, rfl⟩
    exact hbs.exists_enc
  · rintro ⟨m, rfl⟩
    exact Ref.isFrame_enc m

theorem Ref.enc_injective {m m' : List Byte} (h : Ref.enc m = Ref.enc m') : m = m' := by
  have hdec := decodingAnEncodingGivesTheMessage m
  rw [h, decodingAnEncodingGivesTheMessage m'] at hdec
  cases hdec
  rfl

theorem Ref.IsBlocks.nonzero {bs : List Byte} (h : Ref.IsBlocks bs) : ∀ b ∈ bs, b ≠ 0 := by
  induction h with
  | last c d hc hb hd =>
    exact List.forall_mem_cons.mpr ⟨Ref.IsBounded.ne_zero ⟨hc, hb, hd⟩, hd⟩
  | bounded c d rest hc hb hd _ ih =>
    exact List.forall_mem_cons.mpr ⟨Ref.IsBounded.ne_zero ⟨hc, hb, hd⟩, List.forall_mem_append.mpr ⟨hd, ih⟩⟩
  | cont d rest _ hd _ ih => exact List.forall_mem_cons.mpr ⟨by decide, List.forall_mem_append.mpr ⟨hd, ih⟩⟩

/-- The terminator is the one zero byte of a well-formed frame (R185). -/
theorem Ref.IsFrame.count_zero {f : List Byte} (h : Ref.IsFrame f) : f.count 0 = 1 := by
  obtain ⟨bs, hbs, rfl⟩ := h
  rw [List.count_append, List.count_eq_zero.mpr fun h0 => hbs.nonzero 0 h0 rfl]
  rfl

/-- Settles O24: injective by the round trip, its image by induction over the blocks; a decoder meets the other inputs
with a zero among their data bytes (R157). -/
theorem encodingsAreTheWellFormedFrames : Obligations.EncodingsAreTheWellFormedFrames := by
  refine ⟨fun _ _ => Ref.enc_injective, Ref.isFrame_iff, fun f hf => ?_, ?_, fun f m _ hf _ hm => ?_⟩
  · obtain ⟨m, rfl⟩ := (Ref.isFrame_iff f).mp hf
    exact ⟨m, decodingAnEncodingGivesTheMessage m, rfl⟩
  · exact ⟨[0x02, 0x00, 0x00], [0x00], 3, fun hf => absurd hf.count_zero (by decide), rfl⟩
  · exact hf ((Ref.isFrame_iff f).mpr ⟨m, hm⟩)

/-! ### The terminator -/

theorem Ref.enc_getElem?_eq_zero (m : List Byte) (k : Nat) :
    (Ref.enc m)[k]? = some 0 ↔ k + 1 = (Ref.enc m).length := by
  obtain ⟨bs, hbs, hm⟩ := Ref.isFrame_enc m
  rw [hm, List.length_append, List.length_singleton, Nat.add_right_cancel_iff]
  constructor
  · intro hk
    by_contra hne
    obtain ⟨hlt, _⟩ := List.getElem?_eq_some_iff.mp hk
    rw [List.length_append, List.length_singleton] at hlt
    rw [List.getElem?_append_left (by omega)] at hk
    exact hbs.nonzero 0 (List.mem_of_getElem? hk) rfl
  · rintro rfl
    exact List.getElem?_concat_length

/-- In a concatenation of frames the zero bytes are the frames' last bytes. -/
theorem Ref.flatten_enc_getElem?_eq_zero (ms : List (List Byte)) (k : Nat) : (ms.map Ref.enc).flatten[k]? = some 0 ↔
    ∃ j, j < ms.length ∧ k + 1 = ((ms.take (j + 1)).map Ref.enc).flatten.length := by
  induction ms generalizing k with
  | nil => simp
  | cons m ms ih =>
    simp only [List.map_cons, List.flatten_cons, List.take_succ_cons, List.length_append, List.length_cons]
    by_cases hk : k < (Ref.enc m).length
    · rw [List.getElem?_append_left hk, Ref.enc_getElem?_eq_zero]
      constructor
      · intro hlast
        exact ⟨0, by omega, by simpa using hlast⟩
      · rintro ⟨j, _, hj⟩
        omega
    · rw [List.getElem?_append_right (Nat.le_of_not_lt hk), ih]
      constructor
      · rintro ⟨j, hj, hlen⟩
        exact ⟨j + 1, by omega, by omega⟩
      · rintro ⟨j, hj, hlen⟩
        cases j with
        | zero =>
          simp only [List.take_zero, List.map_nil, List.flatten_nil, List.length_nil] at hlen
          omega
        | succ j => exact ⟨j, by omega, by omega⟩

/-- Settles O21: an encoding is a well-formed frame, in which only the terminator is 0x00. -/
theorem terminatorIsTheOnlyZeroAndLast : Obligations.TerminatorIsTheOnlyZeroAndLast :=
  ⟨fun m => ⟨(Ref.isFrame_enc m).count_zero, List.getLast?_concat⟩, Ref.flatten_enc_getElem?_eq_zero⟩

/-! ### A trailing zero -/

/-- A zero byte at a message's end ends its last run, and the empty run behind it is one more block. -/
theorem Ref.exists_enc_append_zero (m : List Byte) :
    ∃ bs, Ref.enc m = bs ++ [0] ∧ Ref.enc (m ++ [0]) = bs ++ [1, 0] := by
  induction m using Ref.run_induction with
  | last c d h =>
    refine ⟨c :: d, h.enc_eq, ?_⟩
    rw [h.enc_append_zero]
    rfl
  | bounded c d rest h ih =>
    obtain ⟨bs, hrest, hzero⟩ := ih
    refine ⟨c :: (d ++ bs), ?_, ?_⟩
    · rw [h.enc_append_zero, hrest, List.cons_append, List.append_assoc]
    · rw [List.append_assoc, List.cons_append, h.enc_append_zero, hzero, List.cons_append, List.append_assoc]
  | cont d rest h ih =>
    obtain ⟨bs, hrest, hzero⟩ := ih
    refine ⟨0xFF :: (d ++ bs), ?_, ?_⟩
    · rw [h.enc_append, hrest, List.cons_append, List.append_assoc]
    · rw [List.append_assoc, h.enc_append, hzero, List.cons_append, List.append_assoc]

/-- Settles O22: the blocks of a message are its encoding without the terminator. -/
theorem trailingZeroAddsAnEmptyBlock : Obligations.TrailingZeroAddsAnEmptyBlock := by
  refine ⟨rfl, fun m => ?_⟩
  obtain ⟨bs, henc, hzero⟩ := Ref.exists_enc_append_zero m
  obtain rfl : Ref.blocks m 0 = bs := List.append_cancel_right henc
  refine ⟨hzero, ?_⟩
  rw [hzero, henc, List.length_append, List.length_append]
  rfl

/-! ### The length of an encoding -/

theorem Ref.IsFull.conts_append {d : List Byte} (h : Ref.IsFull d) (rest : List Byte) :
    Ref.conts (d ++ rest) = Ref.conts rest + 1 := by
  have hlen := congrArg List.length (h.enc_append rest)
  simp only [Ref.enc_length, List.length_append, List.length_cons] at hlen
  omega

theorem Ref.IsBounded.conts_append_zero {c : Byte} {d : List Byte} (h : Ref.IsBounded c d) (rest : List Byte) :
    Ref.conts (d ++ 0 :: rest) = Ref.conts rest := by
  have hlen := congrArg List.length (h.enc_append_zero rest)
  simp only [Ref.enc_length, List.length_append, List.length_cons] at hlen
  omega

theorem Ref.IsBounded.conts_eq_zero {c : Byte} {d : List Byte} (h : Ref.IsBounded c d) : Ref.conts d = 0 := by
  have hlen := congrArg List.length h.enc_eq
  simp only [Ref.enc_length, List.length_append, List.length_cons, List.length_nil] at hlen
  omega

/-- 254 bytes in a row that are all non-zero (R183). -/
def Ref.HasLongRun (m : List Byte) : Prop := ∃ a, a + 254 ≤ m.length ∧ ∀ k, k < 254 → m[a + k]? ≠ some 0

theorem Ref.IsFull.hasLongRun_append {d : List Byte} (h : Ref.IsFull d) (rest : List Byte) :
    Ref.HasLongRun (d ++ rest) := by
  refine ⟨0, by rw [List.length_append, h.length]; omega, fun k hk => ?_⟩
  rw [Nat.zero_add, List.getElem?_append_left (by rw [h.length]; exact hk)]
  exact fun hzero => h.nonzero 0 (List.mem_of_getElem? hzero) rfl

/-- A zero byte behind less than 254 others has every long run behind it. -/
theorem Ref.hasLongRun_append_zero {d : List Byte} (hd : d.length < 254) (rest : List Byte) :
    Ref.HasLongRun (d ++ 0 :: rest) ↔ Ref.HasLongRun rest := by
  have hshift (i : Nat) : (d ++ 0 :: rest)[d.length + 1 + i]? = rest[i]? := by
    rw [List.getElem?_append_right (by omega), show d.length + 1 + i - d.length = i + 1 by omega]
    rfl
  constructor
  · rintro ⟨a, ha, hrun⟩
    have hbehind : d.length < a := by
      by_contra hle
      refine hrun (d.length - a) (by omega) ?_
      rw [Nat.add_sub_of_le (Nat.le_of_not_lt hle), List.getElem?_append_right (Nat.le_refl _), Nat.sub_self]
      rfl
    obtain ⟨a, rfl⟩ := Nat.exists_eq_add_of_le hbehind
    rw [List.length_append, List.length_cons] at ha
    refine ⟨a, by omega, fun k hk => ?_⟩
    rw [← hshift, ← Nat.add_assoc]
    exact hrun k hk
  · rintro ⟨a, ha, hrun⟩
    refine ⟨d.length + 1 + a, by rw [List.length_append, List.length_cons]; omega, fun k hk => ?_⟩
    rw [Nat.add_assoc (d.length + 1), hshift]
    exact hrun k hk

theorem Ref.conts_eq_zero_iff (m : List Byte) : Ref.conts m = 0 ↔ ¬ Ref.HasLongRun m := by
  induction m using Ref.run_induction with
  | last c d h =>
    have hshort := h.length_lt
    refine iff_of_true h.conts_eq_zero ?_
    rintro ⟨a, ha, _⟩
    omega
  | bounded c d rest h ih => rw [h.conts_append_zero, Ref.hasLongRun_append_zero h.length_lt, ih]
  | cont d rest h _ =>
    refine iff_of_false ?_ (not_not_intro (h.hasLongRun_append rest))
    rw [h.conts_append]
    exact Nat.succ_ne_zero _

theorem Ref.enc_length_le (m : List Byte) : (Ref.enc m).length ≤ Ref.encBound m.length := by
  obtain ⟨hlen, hconts, _⟩ := encodingHasItsExactLength m
  unfold Ref.encBound
  omega

theorem Ref.enc_length_of_nonzero {m : List Byte} (hm : ∀ b ∈ m, b ≠ 0) :
    (Ref.enc m).length = Ref.encBound m.length := by
  obtain ⟨hlen, _, hconts⟩ := encodingHasItsExactLength m
  rw [hlen, hconts hm]
  rfl

theorem Ref.enc_length_of_full_zero {m : List Byte} (hlen : m.length = 254) (hm : ∀ b ∈ m, b ≠ 0) :
    (Ref.enc (m ++ [0x00])).length = Ref.encBound 255 := by
  rw [Ref.IsFull.enc_append ⟨hlen, hm⟩, List.length_cons, List.length_append, hlen]
  rfl

/-- Settles O19. No smaller bound serves, for a message of ones needs all of it. -/
theorem encodingLengthHasTrueBounds : Obligations.EncodingLengthHasTrueBounds := by
  refine ⟨fun m => Ref.enc_length_of_full_zero, fun n k => ⟨fun hall => ?_, fun hk m hm => ?_⟩,
    fun m => ⟨?_, Ref.enc_length_le m, ?_, Ref.enc_length_of_nonzero⟩⟩
  · have hones : ∀ b ∈ List.replicate n (1 : Byte), b ≠ 0 := fun b hb => by
      rw [List.eq_of_mem_replicate hb]
      decide
    have hneed := Ref.enc_length_of_nonzero hones
    rw [List.length_replicate] at hneed
    exact hneed ▸ hall _ List.length_replicate
  · exact (Ref.enc_length_le m).trans (hm ▸ hk)
  · rw [Ref.enc_length]
    omega
  · rw [Ref.enc_length]
    exact Iff.trans (by omega) (Ref.conts_eq_zero_iff m)

/-! ### What `LEN` computes -/

theorem Ref.encBound_eq (n : Nat) :
    Ref.encBound n = if n = 0 ∨ ¬ 254 ∣ n then maxEncodedLen n else maxEncodedLen n + 1 := by
  unfold Ref.encBound maxEncodedLen
  split <;> omega

/-- A continuation block takes 254 bytes of the message, none of which is a zero byte. -/
theorem Ref.conts_add_count_le (m : List Byte) : 254 * Ref.conts m + m.count 0 ≤ m.length := by
  induction m using Ref.run_induction with
  | last c d h =>
    rw [h.conts_eq_zero, Nat.mul_zero, Nat.zero_add]
    exact List.count_le_length
  | bounded c d rest h ih =>
    have hdata : d.count 0 ≤ d.length := List.count_le_length
    rw [h.conts_append_zero, List.count_append, List.count_cons_self, List.length_append, List.length_cons]
    omega
  | cont d rest h ih =>
    have hdata : d.count 0 = 0 := List.count_eq_zero.mpr fun h0 => h.nonzero 0 h0 rfl
    rw [h.conts_append, List.count_append, hdata, List.length_append, h.length]
    omega

/-- A message with a zero byte among 254, 508, ... bytes has room for one continuation block less. -/
theorem Ref.enc_length_le_of_zero {m : List Byte} (hdvd : 254 ∣ m.length) (hzero : (0 : Byte) ∈ m) :
    (Ref.enc m).length ≤ maxEncodedLen m.length := by
  have hconts := Ref.conts_add_count_le m
  have hcount := List.count_pos_iff.mpr hzero
  rw [Ref.enc_length]
  unfold maxEncodedLen
  omega

/-- Settles O20: at a multiple of 254 the bound is one more than `LEN` computes, and only a zero-free message needs
it. -/
theorem lenFallsShortOnlyAtZeroFreeMultiplesOf254 : Obligations.LenFallsShortOnlyAtZeroFreeMultiplesOf254 := by
  refine ⟨Ref.encBound_eq, fun m => ?_, fun m _ hdvd hm => ?_⟩
  · split
    next h =>
      obtain ⟨hlen, hdvd, hm⟩ := h
      rw [Ref.enc_length_of_nonzero hm, Ref.encBound_eq, if_neg (by omega)]
    next h =>
      by_cases hbound : m.length = 0 ∨ ¬ 254 ∣ m.length
      · have hle := Ref.enc_length_le m
        rwa [Ref.encBound_eq, if_pos hbound] at hle
      · have hdvd : 254 ∣ m.length := by omega
        refine Ref.enc_length_le_of_zero hdvd ?_
        by_contra hfree
        exact h ⟨by omega, hdvd, fun b hb h0 => hfree (h0 ▸ hb)⟩
  · rw [Ref.enc_length_of_nonzero hm, Ref.encBound_eq, if_pos (.inr hdvd)]

end Sys2Proof.Machine
end

section
/-! How a command ends (60_exceptions.md): the rows that post a status at the end of a decode, and the statuses a command
never ends with. -/

namespace Sys2Proof.Machine

/-! ### The status rows -/

theorem exec_decodeStatus_of_ended {s : State} {j : Job} {code : StatusCode} (hj : s.job = some j)
    (hstage : j.stage = .ended code) : exec (decodeStatus code.bits) s = .next (s.finishDecode j code) := by
  rw [exec_decodeStatus]
  unfold statusRow
  rw [hj]
  exact if_pos hstage

theorem State.leaveFailed_eq (s : State) (b : Buffer) (n : Nat) :
    s.leaveFailed b n = { s with mem := (s.leaveFailed b n).mem, free := (s.leaveFailed b n).free } := by
  unfold State.leaveFailed
  split <;> rfl

theorem State.finishDecode_of_failure {code : StatusCode} (hcode : code ≠ .ok) (s : State) (j : Job) :
    s.finishDecode j code =
      (({ s with job := none }).leaveFailed j.form.dest j.entitled).postFailure code := by
  cases code with
  | ok => exact absurd rfl hcode
  | _ => rfl

/-- A decode that has failed leaves `RLEN` some value of `W` bits (R23, R209). -/
theorem State.finishDecode_rlen_lt {code : StatusCode} (hcode : code ≠ .ok) (s : State) (j : Job) :
    (s.finishDecode j code).rlen < 2 ^ s.cfg.width := by
  rw [State.finishDecode_of_failure hcode, State.postFailure_rlen, State.leaveFailed_cfg]
  exact Nat.mod_lt _ (Nat.two_pow_pos _)

/-- What the end of a failed decode writes: the record, memory, `STATUS` and `RLEN` (R203, R209). -/
theorem State.finishDecode_eq_of_failure {code : StatusCode} (hcode : code ≠ .ok) (s : State) (j : Job) :
    s.finishDecode j code = { s with
      job := none
      mem := (s.finishDecode j code).mem
      status := code.bits
      rlen := (s.finishDecode j code).rlen
      free := (s.finishDecode j code).free
      specified := { s.specified with status := true, rlen := false } } := by
  rw [State.finishDecode_of_failure hcode, State.leaveFailed_eq]
  rfl

/-- Settles O50: each row is the end of the decode with its own code, and the end of a failed decode changes memory within
the bytes it was entitled to (U2). -/
theorem statusRowsPostTheEnd : Obligations.StatusRowsPostTheEnd := by
  intro s j hj
  refine ⟨exec_decodeStatus_of_ended hj, fun i code hrow hstage hm => ?_⟩
  obtain ⟨hi, hcode⟩ : i = decodeStatus code.bits ∧ code ≠ .ok := by
    rcases hrow with ⟨rfl, rfl⟩ | ⟨rfl, rfl⟩ | ⟨rfl, rfl⟩ <;> exact ⟨rfl, nofun⟩
  obtain ⟨_, hframe, hwritten⟩ := finishDecode_mem s j code hm
  exact ⟨s.finishDecode j code, hi ▸ exec_decodeStatus_of_ended hj hstage, s.finishDecode_eq_of_failure hcode j,
    s.finishDecode_rlen_lt hcode j, hframe, fun h => hwritten (.inl h)⟩

/-! ### The statuses of a command -/

/-- The only failure a flow raises is BufferTooSmall. -/
def Flow.OnlyTooSmall (f : Flow) : Prop := ∀ c code, f = .raised c code → code = .bufferTooSmall

theorem Flow.OnlyTooSmall.andThen {f : Flow} {k : Cursors → Flow} (hf : f.OnlyTooSmall)
    (hk : ∀ c, (k c).OnlyTooSmall) : (f.andThen k).OnlyTooSmall := by
  cases f with
  | go c => exact hk c
  | raised c code => exact hf

theorem Flow.onlyTooSmall_go (c : Cursors) : (Flow.go c).OnlyTooSmall := nofun

theorem putByte_onlyTooSmall (dst cap : Nat) (b : Byte) (c : Cursors) : (putByte dst cap b c).OnlyTooSmall := by
  by_cases hroom : c.w < cap
  · rw [putByte_room dst b hroom]
    exact Flow.onlyTooSmall_go _
  · rw [putByte_full dst b (Nat.le_of_not_lt hroom)]
    rintro _ _ ⟨⟩
    rfl

theorem copyRun_onlyTooSmall (src dst cap l : Nat) (c : Cursors) : (copyRun src dst cap l c).OnlyTooSmall := by
  induction l generalizing c with
  | zero => exact Flow.onlyTooSmall_go c
  | succ l ih => exact (putByte_onlyTooSmall dst cap _ c).andThen fun c' => ih { c' with r := c'.r + 1 }

theorem encodeLoop_onlyTooSmall (src dst n cap fuel : Nat) (c : Cursors) :
    (encodeLoop src dst n cap fuel c).OnlyTooSmall := by
  induction fuel generalizing c with
  | zero => exact Flow.onlyTooSmall_go c
  | succ fuel ih =>
    unfold encodeLoop
    refine (putByte_onlyTooSmall _ _ _ _).andThen fun c1 => (copyRun_onlyTooSmall _ _ _ _ c1).andThen fun c2 => ?_
    split
    · exact ih c2
    · exact ih { c2 with r := c2.r + 1 }
    · exact Flow.onlyTooSmall_go c2

/-- Every access of `ENC` that can fail is a `put` (R127). -/
theorem encodeFrame_onlyTooSmall (m : Memory) (src dst n cap : Nat) : (encodeFrame m src dst n cap).OnlyTooSmall :=
  (encodeLoop_onlyTooSmall _ _ _ _ _ _).andThen fun c => putByte_onlyTooSmall dst cap 0x00 c

theorem finishEncode_status (s : State) {f : Flow} (hf : f.OnlyTooSmall) :
    (s.finishEncode f).status = 0 ∨ (s.finishEncode f).status = 1 := by
  cases f with
  | go c => exact .inl rfl
  | raised c code =>
    obtain rfl := hf c code rfl
    exact .inr rfl

theorem nextByte_status (s : State) : s.nextByte.status = 0 := by
  obtain ⟨_, _, _, _, _, _, _, _, _, hstatus, _⟩ := nextByte_fields s
  exact hstatus

/-- `DECI` ends as the reference decoder does, which has no BufferTooSmall to report (R168). -/
theorem exec_deci_status_ne_one {s t : State} (hm : s.mem.wf = true) (h : exec .deci s = .next t) : t.status ≠ 1 := by
  obtain ⟨u, hu, hreports⟩ := exec_deci_reports_output hm ((deciRefusal_none s).mp (guarded_next h).1)
  cases hu.symm.trans h
  exact hreports.status_ne_one

/-- Settles O54: a command that is not refused ends in the state of its own completion. -/
theorem eachCommandHasItsStatuses : Obligations.EachCommandHasItsStatuses := by
  intro s t
  refine ⟨fun h => ?len, fun h => ?encsStart, fun h => ?encsNext, fun h => ?enc, exec_deci_status_ne_one⟩
  case len =>
    obtain ⟨_, rfl⟩ := guarded_next h
    exact State.postOk_status _ _
  case encsStart =>
    rw [exec_encsStart_next h]
    exact State.postStatus_status _ _
  case encsNext =>
    obtain ⟨_, rfl⟩ := guarded_next h
    exact nextByte_status s
  case enc =>
    obtain ⟨_, rfl⟩ := guarded_next h
    exact finishEncode_status s (encodeFrame_onlyTooSmall _ _ _ _ _)

end Sys2Proof.Machine
end

section
/-! The family of 70_reset_and_hazards.md: a reset while the engine is idle and while a decode is in progress (R230). -/

namespace Sys2Proof.Machine

/-- How many bytes a decode could write from index 0 of its destination on: `DST_CAP`, in place `ARG_LEN` (R152, R160). -/
def Job.destLen (j : Job) : Nat :=
  match j.form with
  | .dec => j.cap
  | .deci => j.len

theorem applyReset_of_idle {s : State} (h : s.job = none) : s.applyReset = s.resetRegisters := by
  unfold State.applyReset
  rw [h]

/-- A reset abandons the decode it finds in progress, with all that it could have written (U13). -/
theorem applyReset_of_job {s : State} {j : Job} (h : s.job = some j) :
    s.applyReset = s.abandon j.form.dest j.destLen := by
  unfold State.applyReset Job.destLen
  rw [h]
  cases j with
  | mk form => cases form <;> rfl

/-- Whatever it finds in progress, a reset leaves the registers as R230 says. -/
theorem applyReset_resetFrom (s : State) : s.applyReset.ResetFrom s s.host := by
  cases hj : s.job with
  | none =>
    rw [applyReset_of_idle hj]
    exact resetRegisters_resetFrom s s.host
  | some j =>
    rw [applyReset_of_job hj]
    exact abandon_resetFrom s s.host j.form.dest j.destLen

theorem applyReset_mem_of_idle {s : State} (h : s.job = none) : s.applyReset.mem = s.mem := by
  rw [applyReset_of_idle h, State.resetRegisters_mem]

theorem applyReset_sameOutside_of_job {s : State} {j : Job} (h : s.job = some j) (hm : s.mem.wf = true) :
    s.mem.SameOutside s.applyReset.mem (j.dstBase s) j.destLen := by
  rw [applyReset_of_job h]
  exact abandon_sameOutside hm j.form.dest j.destLen

/-- Settles O2: a pending reset is the next step; it leaves the registers as every reset does, and frees no byte but those
the decode it abandons could have written. -/
theorem resetIdlesTheEngine : Obligations.ResetIdlesTheEngine := by
  intro s rest hh hm
  obtain ⟨hjob, hphase, hmarks, hcfg, hplace, hhost⟩ := applyReset_resetFrom { s with host := rest }
  refine ⟨_, step_reset hh, hjob, hphase, hmarks, hcfg, hplace, hhost, ?_⟩
  split
  next hidle => exact applyReset_mem_of_idle (s := { s with host := rest }) hidle
  next j hj => exact applyReset_sameOutside_of_job (s := { s with host := rest }) hj hm

end Sys2Proof.Machine
end
